-- ==== Sys2Proof/Word.lean ====
section
/-! DEFINITION. The words, cells and numbers of the part: 00_scope.md, "Numbers" and "Terms". -/

namespace Sys2Proof

/-- One word of the host bus and of every register (R170). -/
abbrev Word := BitVec 16

/-- A cell of width 8, 16 or 32, in the low bits of 32 (00_scope.md, "Cell"). -/
abbrev Cell := BitVec 32

/-- One byte of buffer memory. -/
abbrev Byte := BitVec 8

/-- A word address of the register window, 00h to 7Fh (R170). -/
abbrev RegAddr := BitVec 7

/-- A ring number, 0 to 15. -/
abbrev RingId := Fin 16

/-- A lane number, 0 to 3. -/
abbrev LaneId := Fin 4

/-- A DMA channel number, D0 or D1. -/
abbrev ChanId := Fin 2

end Sys2Proof
end

