-- ==== Sys2Proof/Syntax.lean ====
section
/-! DEFINITION. The commands of the block: one constructor for each row of spec/opcode_table.json. -/

namespace Sys2Proof

/-- A step of the part. The window commands (R150) take their operands from `Arg0` to `Arg3` as they stand
(R152), so they have none here (log 1); bus accesses carry the written word; lane events carry the lane, and a
sampling edge also the levels found at the lane's two input pins. -/
inductive Instr where
  | ringOpen
  | ringClose
  | ringFlush
  | ringMarks
  | ringPolicy
  | ringFill
  | ringStatus
  | ringStats
  | ringPeek
  | attach
  | detach
  | laneSet
  | laneStart
  | laneStop
  | laneAbort
  | mapWrite
  | mapConst
  | mapClear
  | mapCopy
  | mapRead
  | mapSwap
  | mapCancel
  | dmaSet
  | dmaGo
  | dmaHalt
  | noticeMask
  | softReset
  | badCode (code : Word)
  | prDataLoRead
  | pwDataHiWrite (value : Word)
  | pwDataLoWrite (value : Word)
  | prFlagsWrite (value : Word)
  | pwFlagsWrite (value : Word)
  | dnStatusWrite (ch : ChanId) (value : Word)
  | dnDataLoRead (ch : ChanId)
  | dnDataLoWrite (ch : ChanId) (value : Word)
  | dnDataHiWrite (ch : ChanId) (value : Word)
  /-- `write` is the word of a write strobe, and none for a read strobe. -/
  | acknowledgedStrobe (dak0 dak1 : Bool) (write : Option Word)
  | noticePop (value : Word)
  | registerWrite (address : RegAddr) (value : Word)
  /-- `met` is the code of a write of `Cmd` that meets the pin, the reset taken first; none where no write does
  (R159; log 30). -/
  | reset (met : Option Word := none)
  | resetRelease
  | startupEnd
  | syncArrival (lane : LaneId)
  | syncCheckPoint (lane : LaneId)
  | frameStart (lane : LaneId)
  | slotStart (lane : LaneId)
  | slotEnd (lane : LaneId)
  | endOfFrame (lane : LaneId)
  | clockWatchExpiry (lane : LaneId)
  | drqReassert (ch : ChanId)
  | driveEdge (lane : LaneId)
  /-- The levels of LnRXD and LnFSYNC at the edge; true is high. -/
  | samplingEdge (lane : LaneId) (rx sync : Bool)
  deriving DecidableEq, Repr

end Sys2Proof
end

