-- ==== Sys2Proof/WellFormed.lean ====
section
/-! DEFINITION. Which commands are well formed: what the operand types do not say already. -/

namespace Sys2Proof

/-- The codes of Table 8-3 (R155). -/
def commandCodes : List Nat :=
  [0x10, 0x11, 0x12, 0x13, 0x14, 0x15, 0x16, 0x17, 0x18, 0x20, 0x21, 0x30, 0x31, 0x32, 0x33,
   0x40, 0x41, 0x42, 0x43, 0x44, 0x45, 0x46, 0x50, 0x51, 0x52, 0x60, 0x70]

/-- The addresses whose write has a row of its own: `Cmd`, `Notice_Pop`, `PR_Flags`, `PW_DataLo`,
`PW_DataHi`, `PW_Flags`, and of D0 and D1 `Dn_DataLo`, `Dn_DataHi`, `Dn_Status` (Table 10-1). -/
def addressesWithOwnWrite : List Nat :=
  [0x00, 0x13, 0x23, 0x24, 0x25, 0x27, 0x30, 0x31, 0x32, 0x34, 0x35, 0x36]

/-- BAD_CODE carries a code that names no command (R150); REGISTER_WRITE an address with no behaviour of its
own; an acknowledged strobe has an acknowledge input asserted (R172). -/
def Instr.wellFormed : Instr → Bool
  | .badCode code => !commandCodes.contains code.toNat
  | .registerWrite address _ => !addressesWithOwnWrite.contains address.toNat
  | .acknowledgedStrobe dak0 dak1 _ => dak0 || dak1
  | .ringOpen | .ringClose | .ringFlush | .ringMarks | .ringPolicy | .ringFill | .ringStatus | .ringStats
  | .ringPeek | .attach | .detach | .laneSet | .laneStart | .laneStop | .laneAbort | .mapWrite | .mapConst
  | .mapClear | .mapCopy | .mapRead | .mapSwap | .mapCancel | .dmaSet | .dmaGo | .dmaHalt | .noticeMask
  | .softReset | .prDataLoRead | .reset _ | .resetRelease | .startupEnd => true
  | .pwDataHiWrite _ | .pwDataLoWrite _ | .prFlagsWrite _ | .pwFlagsWrite _ | .noticePop _ => true
  | .dnStatusWrite _ _ | .dnDataLoRead _ | .dnDataLoWrite _ _ | .dnDataHiWrite _ _ | .drqReassert _ => true
  | .syncArrival _ | .syncCheckPoint _ | .frameStart _ | .slotStart _ | .slotEnd _ | .endOfFrame _
  | .clockWatchExpiry _ | .driveEdge _ | .samplingEdge _ _ _ => true

end Sys2Proof
end

