-- ==== Sys2Proof/Config.lean ====
section
/-! DEFINITION. What the part fixes, and the free values: what the spec leaves open, with no value in Lean. -/

namespace Sys2Proof

/-- Words of buffer memory (R1). -/
def Config.memWords : Nat := 4096

/-- Bytes of buffer memory (R1: 4096 words of 32 bits). -/
def Config.memBytes : Nat := 16384

/-- Records the notice queue holds (R162). -/
def Config.queueDepth : Nat := 32

/-- The reference-clock period in which word 0 is cleared, period 0 being the one in which start-up begins (R176). -/
def Config.firstClearPeriod : Nat := 8

/-- FREE VALUE (log 9): the word of a read strobe taken while RESET_N is asserted, "no defined value" (R170),
for each such read, numbered by `State.freeCount`. -/
opaque Config.undefinedRead : Nat → Word

/-- FREE VALUE (log 10): whether D1 takes a strobe before D0 when both acknowledge inputs are asserted (R172
gives no order), for each such strobe, numbered by `State.freeCount`. -/
opaque Config.ackD1First : Nat → Bool

end Sys2Proof
end

