-- ==== Sys2Proof/Machine/State.lean ====
section
/-! DEFINITION. The state of the part, block by block, as plain data, and its value after reset. -/

namespace Sys2Proof.Machine

/-! ## Rings and seats (01_buffer_memory_and_rings.md, 02_seats_and_attachment.md) -/

inductive RingState where
  | closed | opened
  deriving DecidableEq, Repr

inductive Zone where
  | low | mid | high
  deriving DecidableEq, Repr

inductive EmptyPolicy where
  | fill | repeatLast
  deriving DecidableEq, Repr

inductive FullPolicy where
  | dropNew | dropOldest
  deriving DecidableEq, Repr

/-- The host agents (02_seats_and_attachment.md, 2.2). -/
inductive Agent where
  | pr | pw | dma (ch : ChanId)
  deriving DecidableEq, Repr

/-- Who may hold a seat (R26). `lane n` is LnRX in a producer seat and LnTX in a consumer seat. -/
inductive Holder where
  | agent (a : Agent) | lane (n : LaneId)
  deriving DecidableEq, Repr

inductive Seat where
  | free | reserved (n : LaneId) | held (h : Holder)
  deriving DecidableEq, Repr

/-- Which seat of a ring. -/
inductive Side where
  | producer | consumer
  deriving DecidableEq, Repr

/-- The ring record (Table 1-1). `cap` is the capacity C. -/
structure Ring where
  state : RingState
  base : Nat
  length : Nat
  width : Nat
  cap : Nat
  head : Nat
  tail : Nat
  level : Nat
  lowMark : Nat
  highMark : Nat
  zone : Zone
  fill : Cell
  emptyPolicy : EmptyPolicy
  fullPolicy : FullPolicy
  prime : Bool
  primed : Bool
  lastOut : Cell
  underrunEpisode : Bool
  overrunEpisode : Bool
  underrunCount : Word
  overrunCount : Word
  producer : Seat
  consumer : Seat
  deriving DecidableEq, Repr

/-- The column "After reset" of Table 1-1 (R2). -/
def Ring.reset : Ring :=
  { state := .closed, base := 0, length := 0, width := 0, cap := 0, head := 0, tail := 0, level := 0,
    lowMark := 0, highMark := 0, zone := .low, fill := 0, emptyPolicy := .fill, fullPolicy := .dropNew,
    prime := false, primed := false, lastOut := 0, underrunEpisode := false, overrunEpisode := false,
    underrunCount := 0, overrunCount := 0, producer := .free, consumer := .free }

/-- The attachment record of a host agent (the table of 2.2). -/
structure AttachRecord where
  attached : Bool
  ring : RingId
  seat : Side
  deriving DecidableEq, Repr

/-- The column "After reset" of that table (R28). It gives Seat none: PRODUCER there is the model's (log 18). -/
def AttachRecord.reset : AttachRecord := { attached := false, ring := 0, seat := .producer }

/-- The ring and seat of an attached host agent. -/
structure Attachment where
  ring : RingId
  side : Side
  deriving DecidableEq, Repr

/-! ## Lanes (03_lanes_clocking_framing_and_lock.md, 05_slot_traffic.md) -/

inductive Role where
  | follower | master
  deriving DecidableEq, Repr

inductive SyncForm where
  | pulse | slot
  deriving DecidableEq, Repr

inductive BitOrder where
  | msbFirst | lsbFirst
  deriving DecidableEq, Repr

inductive ClockEdge where
  | driveRise | driveFall
  deriving DecidableEq, Repr

/-- Lane configuration (Table 3-2): `slots` is N, `width` W, `gap` G, `relock` K, `flywheel` M. -/
structure LaneConfig where
  role : Role
  slots : Nat
  width : Nat
  gap : Nat
  syncForm : SyncForm
  syncEarly : Bool
  bitOrder : BitOrder
  clockEdge : ClockEdge
  divisor : Nat
  relock : Nat
  flywheel : Nat
  watch : Nat
  deriving DecidableEq, Repr

/-- The defaults of Table 3-2 (R44). -/
def LaneConfig.reset : LaneConfig :=
  { role := .follower, slots := 8, width := 16, gap := 0, syncForm := .pulse, syncEarly := false,
    bitOrder := .msbFirst, clockEdge := .driveRise, divisor := 8, relock := 2, flywheel := 1, watch := 16 }

inductive LaneState where
  | off | arming | running | hunt | stopping
  deriving DecidableEq, Repr

inductive LossCause where
  | none | misaligned | missed | clockLost
  deriving DecidableEq, Repr

/-- What the part drives on a lane pin: nothing, a low level or a high level. -/
inductive Pin where
  | hiZ | low | high
  deriving DecidableEq, Repr

/-- TxCell (Table 5-1): a cell, or QUIET. -/
inductive TxCell where
  | quiet | cell (c : Cell)
  deriving DecidableEq, Repr

/-- RxTarget (Table 5-1). -/
inductive RxTarget where
  | ignore | ring (r : RingId)
  deriving DecidableEq, Repr

/-- The model's own (log 4): which event of the present bit clock was taken last. `opening`: the slot or frame
start of the drive edge; `driven`: the drive edge; `sampled`: the sampling edge. -/
inductive Half where
  | opening | driven | sampled
  deriving DecidableEq, Repr

inductive LockKind where
  | locked | relocked
  deriving DecidableEq, Repr

/-- The lane record (Tables 3-1, 3-2, 5-1), the lane's output pins, and the model's own bookkeeping (log 4)
from `half` on. -/
structure Lane where
  cfg : LaneConfig
  state : LaneState
  frameCount : Word
  position : Nat
  goodSyncs : Nat
  lastSync : Option Nat
  syncSample : Bool
  missedRun : Nat
  lastCause : LossCause
  watchRunning : Bool
  txCell : TxCell
  txBits : Nat
  rxCell : Cell
  rxBits : Nat
  rxTarget : RxTarget
  txPin : Pin
  bclkPin : Pin
  fsyncPin : Pin
  /-- Own: the event of the bit clock taken last. -/
  half : Half
  /-- Own: the frame before has ended and the next frame start has not been taken (R51). -/
  between : Bool
  /-- Own: the latest sampling edge found a sync arrival that no step has taken yet. -/
  arrivalDue : Bool
  /-- Own: the latest sampling edge is a sync check point that no step has taken yet. -/
  checkDue : Bool
  /-- Own: the level of the receive pin at the latest sampling edge. -/
  rxSample : Bool
  /-- Own: the lock notice that the next frame start posts. -/
  lockNotice : Option LockKind
  /-- Own: bit clocks for which a master's sync is still to be high. -/
  syncLeft : Nat
  deriving DecidableEq, Repr

/-- The columns "After reset" of Tables 3-1, 3-2 and 5-1 (R44, R94). -/
def Lane.reset : Lane :=
  { cfg := .reset, state := .off, frameCount := 0, position := 0, goodSyncs := 0, lastSync := none,
    syncSample := true, missedRun := 0, lastCause := .none, watchRunning := false, txCell := .quiet,
    txBits := 0, rxCell := 0, rxBits := 0, rxTarget := .ignore, txPin := .hiZ, bclkPin := .hiZ,
    fsyncPin := .hiZ, half := .sampled, between := false, arrivalDue := false, checkDue := false,
    rxSample := false, lockNotice := none, syncLeft := 0 }

/-! ## Slot maps (04_slot_maps_and_bank_exchange.md) -/

inductive TxKind where
  | quiet | const | ring
  deriving DecidableEq, Repr

inductive RxKind where
  | ignore | ring
  deriving DecidableEq, Repr

/-- A slot entry (Table 4-2). -/
structure SlotEntry where
  txKind : TxKind
  txRing : RingId
  const : Cell
  rxKind : RxKind
  rxRing : RingId
  mark : Bool
  deriving DecidableEq, Repr

/-- The reset contents of Table 4-2. -/
def SlotEntry.reset : SlotEntry :=
  { txKind := .quiet, txRing := 0, const := 0, rxKind := .ignore, rxRing := 0, mark := false }

/-- A bank of 32 entries (4.1). -/
abbrev Bank := Vector SlotEntry 32

inductive BankName where
  | x | y
  deriving DecidableEq, Repr

/-- The slot map record of one lane (Table 4-1). -/
structure SlotMap where
  live : BankName
  swapPending : Bool
  bankX : Bank
  bankY : Bank
  deriving DecidableEq, Repr

/-- The column "After reset" of Table 4-1 (R72). -/
def SlotMap.reset : SlotMap :=
  { live := .x, swapPending := false, bankX := Vector.replicate 32 .reset,
    bankY := Vector.replicate 32 .reset }

/-! ## Ports and channels (06_register_ports.md, 07_dma_request_channels.md) -/

/-- The read port PR (Table 6-1). -/
structure ReadPort where
  record : AttachRecord
  latch : Word
  underflow : Bool
  stray : Bool
  deriving DecidableEq, Repr

def ReadPort.reset : ReadPort := { record := .reset, latch := 0, underflow := false, stray := false }

/-- The write port PW (Table 6-1). -/
structure WritePort where
  record : AttachRecord
  staging : Word
  overflow : Bool
  stray : Bool
  deriving DecidableEq, Repr

def WritePort.reset : WritePort := { record := .reset, staging := 0, overflow := false, stray := false }

inductive DmaMode where
  | count | free
  deriving DecidableEq, Repr

inductive DmaForm where
  | acked | addressed
  deriving DecidableEq, Repr

inductive ChanState where
  | idle | active | fault
  deriving DecidableEq, Repr

inductive Phase where
  | first | second
  deriving DecidableEq, Repr

/-- The channel record (Table 7-1), and `gap`: a re-assertion gap of DRQn is running (R173). -/
structure Channel where
  record : AttachRecord
  mode : DmaMode
  quantum : Nat
  count : Word
  form : DmaForm
  state : ChanState
  grant : Nat
  tally : Word
  latch : Word
  staging : Word
  phase : Phase
  stray : Bool
  gap : Bool
  deriving DecidableEq, Repr

/-- The column "After reset" of Table 7-1 (R129). -/
def Channel.reset : Channel :=
  { record := .reset, mode := .count, quantum := 1, count := 1, form := .addressed, state := .idle, grant := 0,
    tally := 0, latch := 0, staging := 0, phase := .first, stray := false, gap := false }

/-! ## Command window (08_command_window.md) -/

/-- The result codes of Table 8-2. -/
inductive Result where
  | none | done | accepted | already
  | badCode | badParam | notReady
  | ringState | overlap | seatBusy | agentBusy | notAttached | empty
  | laneState | swapPending | badMap | widthMismatch
  deriving DecidableEq, Repr

/-- The window registers (Table 8-1) and the window's state. -/
structure Window where
  cmd : Word
  arg0 : Word
  arg1 : Word
  arg2 : Word
  arg3 : Word
  result : Result
  rdata0 : Word
  rdata1 : Word
  /-- READY; false is STARTUP. -/
  ready : Bool
  deriving DecidableEq, Repr

/-- The values of R149. -/
def Window.reset : Window :=
  { cmd := 0, arg0 := 0, arg1 := 0, arg2 := 0, arg3 := 0, result := .none, rdata0 := 0, rdata1 := 0,
    ready := false }

/-! ## Notice unit (09_notices_and_the_interrupt_line.md) -/

/-- The seventeen kinds of Table 9-3. -/
inductive NoticeKind where
  | laneLocked | laneRelocked | laneLost | laneStopped | swapDone | swapCancelled | slotMark
  | ringLow | ringHigh | ringUnderrun | ringOverrun | portFault
  | dmaDone | dmaWrap | dmaFault | noticeLost | startupDone
  deriving DecidableEq, Repr

/-- The sources of R161. -/
inductive Source where
  | lane (n : LaneId) | ring (r : RingId) | pr | pw | dma (ch : ChanId) | part
  deriving DecidableEq, Repr

/-- A notice record (R161). -/
structure Notice where
  kind : NoticeKind
  source : Source
  frame : Option Word
  detail : Byte
  deriving DecidableEq, Repr

/-- The notice unit (Table 9-1). Bit k of `mask` is the enable of kind code k. -/
structure NoticeUnit where
  queue : List Notice
  mask : BitVec 32
  lost : Byte
  deriving DecidableEq, Repr

/-- The column "After reset" of Table 9-1: every kind, codes 1 to 17, is enabled; the bits that name no kind
are held as 0 (R160, R163). -/
def NoticeUnit.reset : NoticeUnit := { queue := [], mask := 0x0003FFFE#32, lost := 0 }

/-! ## The part -/

/-- The whole state of the part. -/
structure State where
  /-- The commands that wait, first in first out. -/
  pending : List Instr
  /-- Own: numbers the free values (log 13). -/
  freeCount : Nat
  /-- The word on the data pins at the latest read access (log 12). -/
  readData : Word
  /-- RESET_N is held low (R175). -/
  resetLow : Bool
  /-- The clear address of the start-up unit (R176). -/
  clearAddr : Nat
  /-- Reference-clock periods since start-up began (R176). -/
  period : Nat
  win : Window
  notices : NoticeUnit
  rings : Vector Ring 16
  /-- Buffer memory (R1), by byte, in canonical form (log 8). -/
  mem : List Host.Cell
  lanes : Vector Lane 4
  maps : Vector SlotMap 4
  pr : ReadPort
  pw : WritePort
  chans : Vector Channel 2
  deriving DecidableEq, Repr

/-- Why the part could stop: the spec gives it no stop. A port fault, a channel's FAULT and the STRAY flags are
states of the part, in which it goes on. -/
inductive Fault where
  deriving DecidableEq, Repr

/-- Why the model has no meaning for a command. -/
inductive Refusal where
  /-- Raised by `exec` for a command that has no meaning yet; safe. No command is left so. -/
  | notModelled (mnemonic : String)
  deriving DecidableEq, Repr

/-- The part right after a power-on reset is taken, RESET_N still low (R175; log 7): every block at the values
of its own reset rule (R2, R28, R44, R72, R94, R116, R129, R149, R160), the clear address 0. -/
def State.reset : State :=
  { pending := [], freeCount := 0, readData := 0, resetLow := true, clearAddr := 0, period := 0,
    win := .reset, notices := .reset, rings := Vector.replicate 16 .reset, mem := [],
    lanes := Vector.replicate 4 .reset, maps := Vector.replicate 4 .reset, pr := .reset, pw := .reset,
    chans := Vector.replicate 2 .reset }

end Sys2Proof.Machine
end

