-- ==== Sys2Proof/Machine/Ops.lean ====
section
/-! DEFINITION. The operations the blocks share: accessors, buffer memory, posting a notice, the claims of the
ring table, level reports and request evaluation. -/

namespace Sys2Proof.Machine

/-! ## Accessors: one home for each record -/

def State.ring (s : State) (r : RingId) : Ring := s.rings[r.val]
def State.setRing (s : State) (r : RingId) (g : Ring) : State := { s with rings := s.rings.set r.val g }
def State.lane (s : State) (n : LaneId) : Lane := s.lanes[n.val]
def State.setLane (s : State) (n : LaneId) (l : Lane) : State := { s with lanes := s.lanes.set n.val l }
def State.smap (s : State) (n : LaneId) : SlotMap := s.maps[n.val]
def State.setSmap (s : State) (n : LaneId) (m : SlotMap) : State := { s with maps := s.maps.set n.val m }
def State.chan (s : State) (ch : ChanId) : Channel := s.chans[ch.val]
def State.setChan (s : State) (ch : ChanId) (c : Channel) : State := { s with chans := s.chans.set ch.val c }

/-- Every ring record changed at once. -/
def State.mapRings (s : State) (f : RingId → Ring → Ring) : State :=
  { s with rings := Vector.ofFn fun r => f r (s.ring r) }

/-- The seat of a ring on a side. -/
def Ring.seat (g : Ring) : Side → Seat
  | .producer => g.producer
  | .consumer => g.consumer

def Ring.setSeat (g : Ring) (side : Side) (seat : Seat) : Ring :=
  match side with
  | .producer => { g with producer := seat }
  | .consumer => { g with consumer := seat }

/-- What an attachment record says: the ring and the seat while Attached is yes (R28). -/
def AttachRecord.current (x : AttachRecord) : Option Attachment := if x.attached then some ⟨x.ring, x.seat⟩ else none

def ReadPort.attach (p : ReadPort) : Option Attachment := p.record.current
def WritePort.attach (p : WritePort) : Option Attachment := p.record.current
def Channel.attach (c : Channel) : Option Attachment := c.record.current

/-- The record after an accepted ATTACH (R29) and after an accepted DETACH, which takes Attached no and names no
other field (R32; log 18). -/
def AttachRecord.taken (ring : RingId) (seat : Side) : AttachRecord := { attached := true, ring := ring, seat := seat }
def AttachRecord.released (x : AttachRecord) : AttachRecord := { x with attached := false }

/-- The ring and seat of a host agent while it is attached (R28). -/
def State.attachOf (s : State) : Agent → Option Attachment
  | .pr => s.pr.attach
  | .pw => s.pw.attach
  | .dma ch => (s.chan ch).attach

/-! ## Cells and buffer memory (R1) -/

/-- The low `w` bits of a cell; the bits above are 0. -/
def lowBits (w : Nat) (c : Cell) : Cell := BitVec.ofNat 32 (c.toNat % 2 ^ w)

/-- The low and the high half of a cell (00_scope.md, "Numbers"). -/
def loHalf (c : Cell) : Word := BitVec.ofNat 16 c.toNat
def hiHalf (c : Cell) : Word := BitVec.ofNat 16 (c.toNat / 65536)

/-- A cell from its halves. -/
def cellOf (hi lo : Word) : Cell := BitVec.ofNat 32 (hi.toNat * 65536 + lo.toNat)

/-- A byte of buffer memory: an address not listed reads 0, the value the start-up unit writes (R176; log 8). -/
def Memory.read : List Host.Cell → Nat → Byte
  | [], _ => 0
  | (k, v) :: m, a => if k = a then v else Memory.read m a

/-- A write into the canonical list: addresses rise, and no entry is 0. -/
def Memory.insert : List Host.Cell → Nat → Byte → List Host.Cell
  | [], a, b => if b = 0 then [] else [(a, b)]
  | (k, v) :: m, a, b =>
    if a < k then (if b = 0 then (k, v) :: m else (a, b) :: (k, v) :: m)
    else if a = k then (if b = 0 then m else (a, b) :: m)
    else (k, v) :: Memory.insert m a b

/-- A write of one byte. There is no byte at or above 16384 (R1), and a ring's region never reaches one (R5). -/
def Memory.write (m : List Host.Cell) (a : Nat) (b : Byte) : List Host.Cell :=
  if a < Config.memBytes then Memory.insert m a b else m

/-- The canonical form: every entry from address `lo` on, rising, none 0, all inside the memory. -/
def Memory.wfFrom : Nat → List Host.Cell → Bool
  | _, [] => true
  | lo, (k, v) :: m => decide (lo ≤ k) && decide (k < Config.memBytes) && decide (v ≠ 0) && Memory.wfFrom (k + 1) m

def Memory.wf (m : List Host.Cell) : Bool := Memory.wfFrom 0 m

/-- `n` bytes from address `a` on as a number, the byte at the lowest address least significant. -/
def Memory.readBytes (m : List Host.Cell) : Nat → Nat → Nat
  | _, 0 => 0
  | a, n + 1 => (Memory.read m a).toNat + 256 * Memory.readBytes m (a + 1) n

def Memory.writeBytes (m : List Host.Cell) : Nat → Nat → Nat → List Host.Cell
  | _, 0, _ => m
  | a, n + 1, v => Memory.writeBytes (Memory.write m a (BitVec.ofNat 8 v)) (a + 1) n (v / 256)

/-- Where the cell of index `i` stands: in word base + (i × W) div 32 from bit (i × W) mod 32 on (R1). The
widths are 8, 16 and 32, so that bit begins a byte. -/
def cellAddr (base width i : Nat) : Nat := 4 * (base + i * width / 32) + i * width % 32 / 8

def Memory.readCell (m : List Host.Cell) (base width i : Nat) : Cell :=
  BitVec.ofNat 32 (Memory.readBytes m (cellAddr base width i) (width / 8))

def Memory.writeCell (m : List Host.Cell) (base width i : Nat) (c : Cell) : List Host.Cell :=
  Memory.writeBytes m (cellAddr base width i) (width / 8) c.toNat

/-- The clearing of one word (R176). -/
def Memory.clearWord (m : List Host.Cell) (word : Nat) : List Host.Cell := Memory.writeBytes m (4 * word) 4 0

/-- A word of buffer memory (R1). -/
def Memory.readWord (m : List Host.Cell) (word : Nat) : Cell := BitVec.ofNat 32 (Memory.readBytes m (4 * word) 4)

/-! ## Notices (R161, R162, R165) -/

/-- The kind codes of Table 9-3. -/
def NoticeKind.code : NoticeKind → Nat
  | .laneLocked => 1
  | .laneRelocked => 2
  | .laneLost => 3
  | .laneStopped => 4
  | .swapDone => 5
  | .swapCancelled => 6
  | .slotMark => 7
  | .ringLow => 8
  | .ringHigh => 9
  | .ringUnderrun => 10
  | .ringOverrun => 11
  | .portFault => 12
  | .dmaDone => 13
  | .dmaWrap => 14
  | .dmaFault => 15
  | .noticeLost => 16
  | .startupDone => 17

/-- A saturating step of an 8-bit counter (R165: Lost stays 255). -/
def satIncByte (b : Byte) : Byte := if b = 255 then 255 else b + 1

/-- A post at the notice unit: passed over under the mask, queued, or counted as lost (R162, R165). -/
def NoticeUnit.post (u : NoticeUnit) (x : Notice) : NoticeUnit :=
  if u.mask.getLsbD x.kind.code then
    if u.queue.length < Config.queueDepth then { u with queue := u.queue ++ [x] }
    else { u with lost := satIncByte u.lost }
  else u

def State.post (s : State) (x : Notice) : State := { s with notices := s.notices.post x }

/-! ## Rings -/

/-- The zone that a level has under the marks (R4). -/
def Ring.zoneNow (g : Ring) : Zone :=
  if g.level ≤ g.lowMark then .low else if g.highMark ≤ g.level then .high else .mid

/-- The cell index after `i`, from C − 1 to 0 (R14, R16). -/
def Ring.next (g : Ring) (i : Nat) : Nat := if i + 1 < g.cap then i + 1 else 0

/-- The free room (R126, R135). -/
def Ring.room (g : Ring) : Nat := g.cap - g.level

/-- The substitute of a lane transmit claim (R17). -/
def Ring.substitute (g : Ring) : Cell :=
  match g.emptyPolicy with
  | .fill => g.fill
  | .repeatLast => g.lastOut

/-- A saturating step of a 16-bit counter (R23). -/
def satIncWord (c : Word) : Word := if c = 0xFFFF then 0xFFFF else c + 1

/-- The Zone is evaluated again after an event that changed Level or the marks (R4). -/
def State.rezone (s : State) (r : RingId) : State :=
  let g := s.ring r
  if g.zoneNow = g.zone then s
  else
    let s1 := s.setRing r { g with zone := g.zoneNow }
    match g.zoneNow with
    | .low => s1.post ⟨.ringLow, .ring r, none, 0⟩
    | .high => s1.post ⟨.ringHigh, .ring r, none, 0⟩
    | .mid => s1

/-! ## Requests of DMA channels (R18, R135) -/

/-- What the ring can take of a channel: Level for a READ channel, free room for a WRITE channel (R30, R135). -/
def Ring.available (g : Ring) : Side → Nat
  | .consumer => g.level
  | .producer => g.room

/-- Want: Q in FREE mode, the smaller of Q and Remaining in COUNT mode (R135). -/
def Channel.want (c : Channel) : Nat :=
  match c.mode with
  | .free => c.quantum
  | .count => min c.quantum c.tally.toNat

/-- An ACTIVE channel with Grant 0 evaluates its request (R135). -/
def State.evaluate (s : State) (ch : ChanId) : State :=
  let c := s.chan ch
  match c.attach with
  | none => s
  | some a =>
    if c.state = .active ∧ c.grant = 0 ∧ c.want ≤ (s.ring a.ring).available a.side
    then s.setChan ch { c with grant := c.want }
    else s

/-- Whether a channel holds a seat of the ring. -/
def State.seatedAt (s : State) (ch : ChanId) (r : RingId) : Bool :=
  match (s.chan ch).attach with
  | none => false
  | some a => a.ring == r

def State.reportTo (s : State) (r : RingId) (ch : ChanId) : State :=
  if s.seatedAt ch r then s.evaluate ch else s

/-- A change of a ring's Level is reported to every channel that holds a seat of it (R18). -/
def State.report (s : State) (r : RingId) : State := (s.reportTo r 0).reportTo r 1

/-! ## Append claims (R14, R15, R19, R22) -/

/-- Who makes an append claim. -/
inductive Appender where
  | lane (n : LaneId) | host
  deriving DecidableEq, Repr

/-- The record of a ring that has stored a cell (R14, R19). -/
def Ring.stored (g : Ring) : Ring :=
  { g with tail := g.next g.tail, level := g.level + 1, overrunEpisode := false,
           primed := g.primed || decide (g.highMark ≤ g.level + 1) }

/-- A claim that finds room stores its cell (R14). -/
def State.storeCell (s : State) (r : RingId) (c : Cell) : State :=
  let g := s.ring r
  let s1 := { s with mem := Memory.writeCell s.mem g.base g.width g.tail c }
  ((s1.setRing r g.stored).rezone r).report r

/-- DROP_OLDEST: the Head cell is discarded and the new one stands at the tail (R15). -/
def State.displaceCell (s : State) (r : RingId) (c : Cell) : State :=
  let g := s.ring r
  let s1 := { s with mem := Memory.writeCell s.mem g.base g.width g.tail c }
  s1.setRing r { g with head := g.next g.head, tail := g.next g.tail }

/-- Every full-ring append claim primes an unprimed ring (R15, R19). -/
def State.primeFull (s : State) (r : RingId) : State :=
  let g := s.ring r
  s.setRing r { g with primed := g.primed || decide (g.highMark ≤ g.level) }

/-- An overrun of a lane receive claim is counted, and may begin an episode (R22). -/
def State.countOverrun (s : State) (r : RingId) (n : LaneId) : State :=
  let g := s.ring r
  let s1 := s.setRing r { g with overrunCount := satIncWord g.overrunCount, overrunEpisode := true }
  if g.overrunEpisode then s1
  else s1.post ⟨.ringOverrun, .ring r, some (s.lane n).frameCount, BitVec.ofNat 8 n.val⟩

/-- An append claim. The answer says whether the cell was stored by a claim that found room. A CLOSED ring takes
no claims (R2). -/
def State.appendClaim (s : State) (r : RingId) (c : Cell) (who : Appender) : State × Bool :=
  let g := s.ring r
  if g.state = .closed then (s, false)
  else if g.level < g.cap then (s.storeCell r c, true)
  else
    match who with
    | .host => (s.primeFull r, false)
    | .lane n =>
      match g.fullPolicy with
      | .dropNew => ((s.primeFull r).countOverrun r n, false)
      | .dropOldest => (((s.displaceCell r c).primeFull r).countOverrun r n, false)

/-! ## Remove claims (R16, R17, R20, R21) -/

/-- The Head cell (R16). -/
def State.headCell (s : State) (r : RingId) : Cell :=
  let g := s.ring r
  Memory.readCell s.mem g.base g.width g.head

/-- The record of a ring whose Head cell `c` was removed (R16). -/
def Ring.removed (g : Ring) (c : Cell) : Ring :=
  { g with head := g.next g.head, level := g.level - 1, lastOut := c, underrunEpisode := false }

/-- A removal (R16). -/
def State.removeCell (s : State) (r : RingId) : State :=
  ((s.setRing r ((s.ring r).removed (s.headCell r))).rezone r).report r

/-- An underrun is counted, and may begin an episode, which clears Primed (R21). -/
def State.countUnderrun (s : State) (r : RingId) (n : LaneId) : State :=
  let g := s.ring r
  if g.underrunEpisode then s.setRing r { g with underrunCount := satIncWord g.underrunCount }
  else
    (s.setRing r { g with underrunCount := satIncWord g.underrunCount, underrunEpisode := true,
                          primed := false }).post
      ⟨.ringUnderrun, .ring r, some (s.lane n).frameCount, BitVec.ofNat 8 n.val⟩

/-- A lane transmit claim is held back with Prime on and Primed false (R20). -/
def Ring.heldBack (g : Ring) : Bool := g.prime && !g.primed

/-- A remove claim of a lane's transmit side: the cell handed over (R16, R17, R20, R21). -/
def State.removeForLane (s : State) (r : RingId) (n : LaneId) : State × Cell :=
  let g := s.ring r
  if g.state = .closed then (s, 0)
  else if g.heldBack then (s, g.substitute)
  else if 0 < g.level then (s.removeCell r, s.headCell r)
  else (s.countUnderrun r n, g.substitute)

/-- A remove claim of a host agent: the cell handed over, and whether one was removed; Fill from an empty ring
(R16, R17). -/
def State.removeForHost (s : State) (r : RingId) : State × Cell × Bool :=
  let g := s.ring r
  if g.state = .closed then (s, 0, false)
  else if 0 < g.level then (s.removeCell r, s.headCell r, true)
  else (s, g.fill, false)

end Sys2Proof.Machine
end

