-- ==== Sys2Proof/Machine/Operands.lean ====
section
/-! DEFINITION. Operands of commands: numbers, enumerated codes and packed words (R152, R155, R156), and the
codes the registers show (Tables 2-1, 8-2, 9-2). -/

namespace Sys2Proof.Machine

/-! ## Numbers -/

def ringArg (w : Word) : Option RingId := if h : w.toNat < 16 then some ⟨w.toNat, h⟩ else none
def laneArg (w : Word) : Option LaneId := if h : w.toNat < 4 then some ⟨w.toNat, h⟩ else none
def chanArg (w : Word) : Option ChanId := if h : w.toNat < 2 then some ⟨w.toNat, h⟩ else none

/-- agent: 0 PR, 1 PW, 2 D0, 3 D1 (Table 8-3). -/
def agentArg (w : Word) : Option Agent :=
  match w.toNat with
  | 0 => some .pr
  | 1 => some .pw
  | 2 => some (.dma 0)
  | 3 => some (.dma 1)
  | _ => none

/-- seat: 0 PRODUCER, 1 CONSUMER (Table 8-3). -/
def sideArg (w : Word) : Option Side :=
  match w.toNat with
  | 0 => some .producer
  | 1 => some .consumer
  | _ => none

def emptyPolicyArg (w : Word) : Option EmptyPolicy :=
  match w.toNat with
  | 0 => some .fill
  | 1 => some .repeatLast
  | _ => none

def fullPolicyArg (w : Word) : Option FullPolicy :=
  match w.toNat with
  | 0 => some .dropNew
  | 1 => some .dropOldest
  | _ => none

/-- 0 or 1: off and on, clear, bank LIVE and EDIT, part FIELDS and CONST. -/
def flagArg (w : Word) : Option Bool :=
  match w.toNat with
  | 0 => some false
  | 1 => some true
  | _ => none

def boolNat (b : Bool) : Nat := if b then 1 else 0
def boolWord (b : Bool) : Word := BitVec.ofNat 16 (boolNat b)

/-! ## Slot entry words (R156, Table 8-4) -/

def TxKind.code : TxKind → Nat
  | .quiet => 0
  | .const => 1
  | .ring => 2

/-- TxKind 3 names nothing. -/
def txKindArg (w : Word) : Option TxKind :=
  match w.toNat % 4 with
  | 0 => some .quiet
  | 1 => some .const
  | 2 => some .ring
  | _ => none

def RxKind.code : RxKind → Nat
  | .ignore => 0
  | .ring => 1

def rxKindArg (w : Word) : RxKind := if w.getLsbD 0 then .ring else .ignore

/-- Bits 7..4 of a word, the ring of a transmit or receive word. -/
def ringField (w : Word) : RingId := ⟨w.toNat / 16 % 16, Nat.mod_lt _ (by decide)⟩

def SlotEntry.txWord (e : SlotEntry) : Word := BitVec.ofNat 16 (e.txKind.code + 16 * e.txRing.val)

def SlotEntry.rxWord (e : SlotEntry) : Word :=
  BitVec.ofNat 16 (e.rxKind.code + 16 * e.rxRing.val + 256 * boolNat e.mark)

/-! ## Lane parameters (Table 3-2) -/

/-- Whether a value is one of the parameter's values as written; no parameter has a code above 11. -/
def laneParamOk (param value : Nat) : Bool :=
  match param with
  | 0 => value ≤ 1
  | 1 => 1 ≤ value && value ≤ 32
  | 2 => value == 8 || value == 16 || value == 32
  | 3 => value ≤ 63
  | 4 => value ≤ 1
  | 5 => value ≤ 1
  | 6 => value ≤ 1
  | 7 => value ≤ 1
  | 8 => 1 ≤ value && value ≤ 4096
  | 9 => 1 ≤ value && value ≤ 8
  | 10 => value ≤ 7
  | 11 => 1 ≤ value && value ≤ 255
  | _ => false

/-- The configuration with one parameter written. -/
def LaneConfig.put (c : LaneConfig) (param value : Nat) : LaneConfig :=
  match param with
  | 0 => { c with role := if value = 1 then .master else .follower }
  | 1 => { c with slots := value }
  | 2 => { c with width := value }
  | 3 => { c with gap := value }
  | 4 => { c with syncForm := if value = 1 then .slot else .pulse }
  | 5 => { c with syncEarly := value == 1 }
  | 6 => { c with bitOrder := if value = 1 then .lsbFirst else .msbFirst }
  | 7 => { c with clockEdge := if value = 1 then .driveFall else .driveRise }
  | 8 => { c with divisor := value }
  | 9 => { c with relock := value }
  | 10 => { c with flywheel := value }
  | 11 => { c with watch := value }
  | _ => c

/-! ## Channel settings (R130) -/

def dmaSettingOk (setting value : Nat) : Bool :=
  match setting with
  | 0 => value ≤ 1
  | 1 => value == 1 || value == 2 || value == 4 || value == 8 || value == 16
  | 2 => 1 ≤ value
  | 3 => value ≤ 1
  | _ => false

/-- The record with one setting written. FORM leaves Phase as it stands: R132 names no DMA_SET among the events that
take it to FIRST (DEDUCED; log 29). -/
def Channel.put (c : Channel) (setting : Nat) (value : Word) : Channel :=
  match setting with
  | 0 => { c with mode := if value.toNat = 1 then .free else .count }
  | 1 => { c with quantum := value.toNat }
  | 2 => { c with count := value }
  | 3 => { c with form := if value.toNat = 1 then .addressed else .acked }
  | _ => c

/-! ## Codes shown by registers -/

/-- Table 2-1. -/
def Seat.code : Seat → Nat
  | .free => 0
  | .held (.agent .pr) => 1
  | .held (.agent .pw) => 1
  | .held (.agent (.dma ch)) => 2 + ch.val
  | .held (.lane n) => 4 + n.val
  | .reserved n => 8 + n.val

def Zone.code : Zone → Nat
  | .low => 0
  | .mid => 1
  | .high => 2

def RingState.code : RingState → Nat
  | .closed => 0
  | .opened => 1

/-- Table 8-2. -/
def Result.code : Result → Word
  | .none => 0x00
  | .done => 0x01
  | .accepted => 0x02
  | .already => 0x03
  | .badCode => 0x10
  | .badParam => 0x11
  | .notReady => 0x12
  | .ringState => 0x20
  | .overlap => 0x21
  | .seatBusy => 0x22
  | .agentBusy => 0x23
  | .notAttached => 0x24
  | .empty => 0x25
  | .laneState => 0x30
  | .swapPending => 0x31
  | .badMap => 0x32
  | .widthMismatch => 0x33

/-- The source codes of Table 9-2. -/
def Source.code : Source → Nat
  | .lane n => n.val
  | .pr => 4
  | .pw => 5
  | .dma ch => 6 + ch.val
  | .part => 8
  | .ring r => 16 + r.val

/-- The cause codes of Table 10-2 and of LANE_LOST (R65). -/
def LossCause.code : LossCause → Nat
  | .none => 0
  | .misaligned => 1
  | .missed => 2
  | .clockLost => 3

def LaneState.code : LaneState → Nat
  | .off => 0
  | .arming => 1
  | .running => 2
  | .hunt => 3
  | .stopping => 4

def ChanState.code : ChanState → Nat
  | .idle => 0
  | .active => 1
  | .fault => 2

def BankName.code : BankName → Nat
  | .x => 0
  | .y => 1

end Sys2Proof.Machine
end

