-- ==== Sys2Proof/Machine/Flags.lean ====
section
/-! DEFINITION. Sticky flags and the status words and pins computed from the state (R69, R127, R136, R144, R146,
R157, R164, R167, R168, R173; Tables 8-5, 9-2, 10-2). -/

namespace Sys2Proof.Machine

/-! ## Sticky flags of the ports (R127) -/

/-- PORT_FAULT is posted when a flag goes from clear to set. -/
def State.postPortFault (s : State) (source : Source) (detail : Byte) (was : Bool) : State :=
  if was then s else s.post ⟨.portFault, source, none, detail⟩

/-- R118. -/
def State.setUnderflow (s : State) : State :=
  { s with pr := { s.pr with underflow := true } }.postPortFault .pr 1 s.pr.underflow

/-- R120: during start-up no flag is set (R116). -/
def State.setPrStray (s : State) : State :=
  if s.win.ready then { s with pr := { s.pr with stray := true } }.postPortFault .pr 2 s.pr.stray else s

/-- R124. -/
def State.setOverflow (s : State) : State :=
  { s with pw := { s.pw with overflow := true } }.postPortFault .pw 1 s.pw.overflow

/-- R125: during start-up no flag is set (R116). -/
def State.setPwStray (s : State) : State :=
  if s.win.ready then { s with pw := { s.pw with stray := true } }.postPortFault .pw 2 s.pw.stray else s

/-- A port's flag word after a write of 1 to clear: bit 0 UNDERFLOW, bit 1 STRAY (R127, Table 10-2). -/
def ReadPort.clearFlags (p : ReadPort) (v : Word) : ReadPort :=
  { p with underflow := p.underflow && !v.getLsbD 0, stray := p.stray && !v.getLsbD 1 }

/-- Bit 0 OVERFLOW, bit 1 STRAY (R127, Table 10-2). -/
def WritePort.clearFlags (p : WritePort) (v : Word) : WritePort :=
  { p with overflow := p.overflow && !v.getLsbD 0, stray := p.stray && !v.getLsbD 1 }

/-! ## STRAY of a channel (R144) -/

/-- Setting STRAY posts nothing; during start-up it is not set. -/
def State.setChanStray (s : State) (ch : ChanId) : State :=
  if s.win.ready then s.setChan ch { s.chan ch with stray := true } else s

/-- STRAY is bit 15 of `Dn_Status` (Table 10-2). -/
def Channel.clearStray (c : Channel) (v : Word) : Channel := { c with stray := c.stray && !v.getLsbD 15 }

/-! ## Status words -/

/-- Table 8-5. A CLOSED ring reports its reset values (R11). -/
def Ring.statusWord (g : Ring) : Word :=
  match g.state with
  | .closed => 0
  | .opened =>
    BitVec.ofNat 16 (g.producer.code + 16 * g.consumer.code + 256 * g.state.code + 512 * g.zone.code
      + 2048 * boolNat g.prime + 4096 * boolNat g.primed + 8192 * boolNat g.underrunEpisode
      + 16384 * boolNat g.overrunEpisode)

def Ring.levelWord (g : Ring) : Word :=
  match g.state with
  | .closed => 0
  | .opened => BitVec.ofNat 16 g.level

/-- The request line (R136). -/
def Channel.request (c : Channel) : Bool := decide (0 < c.grant)

/-- The pin DRQn: high while Grant is above 0, but for a re-assertion gap (R173). A strobe has no duration here, so a
grant recorded by a level report drives the pin high at once, also one recorded while a strobe is in progress, for
which R173 gives no time (DESIGN CHOICE; log 32). -/
def Channel.drqPin (c : Channel) : Bool := c.request && !c.gap

/-- The interrupt line (R167). `INT_N` is low while it is asserted (R174). -/
def NoticeUnit.interrupt (u : NoticeUnit) : Bool := !u.queue.isEmpty

def ReadPort.flagsWord (p : ReadPort) : Word := BitVec.ofNat 16 (boolNat p.underflow + 2 * boolNat p.stray)

def WritePort.flagsWord (p : WritePort) : Word := BitVec.ofNat 16 (boolNat p.overflow + 2 * boolNat p.stray)

/-- `Dn_Status` (R146, Table 10-2). -/
def Channel.statusWord (c : Channel) : Word :=
  BitVec.ofNat 16 (c.state.code + 4 * boolNat c.request + 16 * c.grant + 32768 * boolNat c.stray)

/-- `Ln_Status` (R69, Table 10-2). -/
def State.laneStatusWord (s : State) (n : LaneId) : Word :=
  BitVec.ofNat 16 ((s.lane n).state.code + 16 * (s.smap n).live.code + 32 * boolNat (s.smap n).swapPending
    + 256 * (s.lane n).lastCause.code)

/-- `Global_Status` (R168, Table 10-2). -/
def State.globalStatusWord (s : State) : Word :=
  BitVec.ofNat 16 (s.notices.queue.length + 128 * boolNat (!s.win.ready) + 256 * s.notices.lost.toNat)

/-- `Notice_Head` of a record (Table 9-2). -/
def Notice.headWord (x : Notice) : Word :=
  BitVec.ofNat 16 (x.kind.code + 256 * x.source.code + 32768 * boolNat x.frame.isSome)

/-- The three head registers show the oldest record, and 0 when the queue is empty (R164). -/
def NoticeUnit.headWord (u : NoticeUnit) : Word :=
  match u.queue with
  | [] => 0
  | x :: _ => x.headWord

def NoticeUnit.frameWord (u : NoticeUnit) : Word :=
  match u.queue with
  | [] => 0
  | x :: _ => x.frame.getD 0

def NoticeUnit.detailWord (u : NoticeUnit) : Word :=
  match u.queue with
  | [] => 0
  | x :: _ => BitVec.ofNat 16 x.detail.toNat

/-- `PR_Level` (R121) and `PW_Level` (R126): 0 while unattached. -/
def State.prLevelWord (s : State) : Word :=
  match s.pr.attach with
  | none => 0
  | some a => BitVec.ofNat 16 (s.ring a.ring).level

def State.pwLevelWord (s : State) : Word :=
  match s.pw.attach with
  | none => 0
  | some a => BitVec.ofNat 16 (s.ring a.ring).room

/-- A read of `Dn_DataHi` by address: Latch of a READ channel, Staging of a WRITE channel on a 32-bit ring, Latch
where narrower or unattached (R132, R140, R144); 0 in ACKED form (R131). -/
def State.dataHiWord (s : State) (ch : ChanId) : Word :=
  let c := s.chan ch
  match c.form with
  | .acked => 0
  | .addressed =>
    match c.attach with
    | none => c.latch
    | some a =>
      match a.side with
      | .consumer => c.latch
      | .producer => if (s.ring a.ring).width = 32 then c.staging else c.latch

end Sys2Proof.Machine
end

