-- ==== Sys2Proof/Machine/Exchange.lean ====
section
/-! DEFINITION. What the slot map unit does to banks and seats: naming, validation, reservation, the exchange and
its cancellation (R34 to R41, R83 to R90). -/

namespace Sys2Proof.Machine

/-! ## Banks -/

def SlotMap.bank (m : SlotMap) : BankName → Bank
  | .x => m.bankX
  | .y => m.bankY

/-- The other bank. -/
def BankName.other : BankName → BankName
  | .x => .y
  | .y => .x

def SlotMap.liveBank (m : SlotMap) : Bank := m.bank m.live
def SlotMap.editBank (m : SlotMap) : Bank := m.bank m.live.other

def SlotMap.setLive (m : SlotMap) (b : Bank) : SlotMap :=
  match m.live with
  | .x => { m with bankX := b }
  | .y => { m with bankY := b }

def SlotMap.setEdit (m : SlotMap) (b : Bank) : SlotMap :=
  match m.live with
  | .x => { m with bankY := b }
  | .y => { m with bankX := b }

/-- The ring an entry names on a side: RxRing for receive through the producer seat, TxRing for transmit through
the consumer seat (R34). -/
def SlotEntry.names (e : SlotEntry) : Side → Option RingId
  | .producer => if e.rxKind = .ring then some e.rxRing else none
  | .consumer => if e.txKind = .ring then some e.txRing else none

/-- Entries 0..N−1 of a bank. -/
def counted (b : Bank) (slots : Nat) : List SlotEntry := b.toList.take slots

/-- Whether some entry 0..N−1 of a bank names the ring on the side (R34). -/
def bankNames (b : Bank) (slots : Nat) (side : Side) (r : RingId) : Bool :=
  (counted b slots).any fun e => e.names side == some r

/-- Whether the lane holds or has reserved any seat (R46). -/
def Seat.ofLane (seat : Seat) (n : LaneId) : Bool := seat == .held (.lane n) || seat == .reserved n

def State.laneHasSeat (s : State) (n : LaneId) : Bool :=
  s.rings.toList.any fun g => g.producer.ofLane n || g.consumer.ofLane n

/-! ## Validation (R83) -/

/-- The three tests of a named ring in turn. -/
def State.namingTest (s : State) (n : LaneId) (side : Side) (r : RingId) : Option Result :=
  let g := s.ring r
  if g.state ≠ .opened then some .badMap
  else if g.width ≠ (s.lane n).cfg.width then some .widthMismatch
  else if g.seat side = .free ∨ g.seat side = .held (.lane n) then none
  else some .seatBusy

/-- The test of what an entry names on a side; an entry that names nothing passes. -/
def State.entryTest (s : State) (n : LaneId) (side : Side) (e : SlotEntry) : Option Result :=
  match e.names side with
  | none => none
  | some r => s.namingTest n side r

/-- Entries in increasing slot order from `slot` on, transmit before receive: the first failing test with its
slot index and its direction, 0 transmit and 1 receive. -/
def State.validateFrom (s : State) (n : LaneId) : Nat → List SlotEntry → Option (Result × Word × Word)
  | _, [] => none
  | slot, e :: rest =>
    match s.entryTest n .consumer e with
    | some code => some (code, BitVec.ofNat 16 slot, 0)
    | none =>
      match s.entryTest n .producer e with
      | some code => some (code, BitVec.ofNat 16 slot, 1)
      | none => s.validateFrom n (slot + 1) rest

def State.validateSwap (s : State) (n : LaneId) : Option (Result × Word × Word) :=
  s.validateFrom n 0 (counted (s.smap n).editBank (s.lane n).cfg.slots)

/-! ## Seats -/

/-- A FREE seat that the edit bank names becomes RESERVED (R36). -/
def Seat.reserveFor (seat : Seat) (n : LaneId) (named : Bool) : Seat :=
  if named && seat == .free then .reserved n else seat

/-- A seat RESERVED for the lane becomes HELD by it (R38). -/
def Seat.takeBy (seat : Seat) (n : LaneId) : Seat := if seat = .reserved n then .held (.lane n) else seat

/-- A seat HELD by the lane that the live bank no longer names becomes FREE (R39). -/
def Seat.releaseBy (seat : Seat) (n : LaneId) (named : Bool) : Seat :=
  if !named && seat == .held (.lane n) then .free else seat

/-- A seat RESERVED for the lane becomes FREE (R40). -/
def Seat.unreserve (seat : Seat) (n : LaneId) : Seat := if seat = .reserved n then .free else seat

/-- Both seats of every ring changed. -/
def State.mapSeats (s : State) (f : Side → RingId → Seat → Seat) : State :=
  s.mapRings fun r g => { g with producer := f .producer r g.producer, consumer := f .consumer r g.consumer }

/-- Reservation of the seats that the edit bank names (R36). -/
def State.reserveSeats (s : State) (n : LaneId) : State :=
  s.mapSeats fun side r seat =>
    seat.reserveFor n (bankNames (s.smap n).editBank (s.lane n).cfg.slots side r)

def State.takeSeats (s : State) (n : LaneId) : State := s.mapSeats fun _ _ seat => seat.takeBy n

def State.releaseSeats (s : State) (n : LaneId) : State :=
  s.mapSeats fun side r seat =>
    seat.releaseBy n (bankNames (s.smap n).liveBank (s.lane n).cfg.slots side r)

def State.unreserveSeats (s : State) (n : LaneId) : State := s.mapSeats fun _ _ seat => seat.unreserve n

/-! ## The exchange and its cancellation -/

def SlotMap.swapLive (m : SlotMap) : SlotMap := { m with live := m.live.other }

/-- The exchange on a lane, steps 1 to 5 of R86; in OFF the notice carries no frame (R88). -/
def State.exchange (s : State) (n : LaneId) (frame : Option Word) : State :=
  let s1 := s.setSmap n (s.smap n).swapLive
  let s2 := (s1.takeSeats n).releaseSeats n
  (s2.setSmap n { s2.smap n with swapPending := false }).post ⟨.swapDone, .lane n, frame, 0⟩

/-- The end of a pending swap without an exchange: reservations freed (R40, R89). -/
def State.dropSwap (s : State) (n : LaneId) : State :=
  (s.unreserveSeats n).setSmap n { s.smap n with swapPending := false }

/-- What the slot map unit does at a lane's entry to OFF (R90). -/
def State.cancelSwap (s : State) (n : LaneId) : State :=
  if (s.smap n).swapPending then (s.dropSwap n).post ⟨.swapCancelled, .lane n, none, 0⟩ else s

end Sys2Proof.Machine
end

