-- ==== Sys2Proof/Machine/Framing.lean ====
section
/-! DEFINITION. What a lane does at its own events, shared by the commands and events of lanes: the bits on the
wire, slot starts, frame starts, lock, entry to HUNT and to OFF (R47 to R67, R94 to R102, R111 to R113). -/

namespace Sys2Proof.Machine

/-! ## Frame layout (R47) -/

/-- F = N × W + G. -/
def LaneConfig.frameLen (c : LaneConfig) : Nat := c.slots * c.width + c.gap

/-- Positions below N × W belong to slots; the rest is the gap. -/
def LaneConfig.slotsLen (c : LaneConfig) : Nat := c.slots * c.width

/-- The lane is RUNNING or STOPPING: a frame may be in flight. -/
def Lane.framing (l : Lane) : Bool := l.state == .running || l.state == .stopping

/-- A position of a slot of the frame in flight. -/
def Lane.inSlot (l : Lane) : Bool := !l.between && decide (l.position < l.cfg.slotsLen)

/-- All bits of the slot in flight have been sampled and its slot end has not been taken (R102). -/
def Lane.slotEndDue (l : Lane) : Bool := l.rxBits == l.cfg.width

/-- An event of the latest sampling edge has not been taken yet (log 4). -/
def Lane.owes (l : Lane) : Bool := l.arrivalDue || l.checkDue || l.slotEndDue

/-- The frame start of the next frame is taken at a drive edge: a master, or a follower with SYNC_EARLY on (R48). -/
def LaneConfig.startsAtDrive (c : LaneConfig) : Bool := c.role == .master || c.syncEarly

/-- The next drive edge closes position F − 1 (R48). -/
def Lane.atFrameEnd (l : Lane) : Bool :=
  l.half == .sampled && !l.between && decide (l.position + 1 = l.cfg.frameLen) && !l.owes

/-- The frame start that a drive edge opens is due (R48, R62). -/
def Lane.frameStartDue (l : Lane) : Bool := l.state == .running && l.cfg.startsAtDrive && l.atFrameEnd

/-- The end of a stopping frame is due (R51). -/
def Lane.endOfFrameDue (l : Lane) : Bool := l.state == .stopping && l.atFrameEnd

/-- The next drive edge opens a slot s ≥ 1 (R48). -/
def Lane.slotStartDue (l : Lane) : Bool :=
  l.framing && l.half == .sampled && !l.between && !l.owes
    && decide (l.position + 1 < l.cfg.slotsLen) && decide ((l.position + 1) % l.cfg.width = 0)

/-! ## Bits on the wire -/

/-- The bit of a cell that stands at place j of its slot (R112, R113). -/
def LaneConfig.bitIndex (c : LaneConfig) (j : Nat) : Nat :=
  match c.bitOrder with
  | .msbFirst => c.width - 1 - j
  | .lsbFirst => j

def pinLevel (high : Bool) : Pin := if high then .high else .low

/-- The transmit pin from the drive edge of the present position on: the next bit of TxCell, or high impedance
(R97, R111, R112). Between frames the pin is held until the frame start (R97; log 28). -/
def Lane.driveBit (l : Lane) : Lane :=
  if l.between then l
  else if l.inSlot then
    match l.txCell with
    | .quiet => { l with txPin := .hiZ }
    | .cell c => { l with txPin := pinLevel (c.getLsbD (l.cfg.bitIndex l.txBits)), txBits := l.txBits + 1 }
  else { l with txPin := .hiZ }

/-- A sampled bit is placed into RxCell (R101, R113). -/
def Lane.placeBit (l : Lane) (bit : Bool) : Lane :=
  { l with rxCell := l.rxCell ||| (if bit then (1#32 <<< l.cfg.bitIndex l.rxBits) else 0),
           rxBits := l.rxBits + 1 }

/-- The level of the bit clock after a drive edge and after a sampling edge (R45, R54). -/
def LaneConfig.driveLevel (c : LaneConfig) : Pin :=
  match c.clockEdge with
  | .driveRise => .high
  | .driveFall => .low

def LaneConfig.sampleLevel (c : LaneConfig) : Pin :=
  match c.clockEdge with
  | .driveRise => .low
  | .driveFall => .high

/-- The bit clocks for which a master's sync is high (R55). -/
def LaneConfig.syncLen (c : LaneConfig) : Nat :=
  match c.syncForm with
  | .pulse => 1
  | .slot => if c.frameLen = c.width then c.width - 1 else c.width

/-- The high time of a master's sync begins at the drive edge of the present position (R55); a STOPPING master
begins none for a next frame. -/
def Lane.syncBegins (l : Lane) : Bool :=
  if l.cfg.syncEarly then l.state == .running && decide (l.position + 1 = l.cfg.frameLen)
  else decide (l.position = 0)

/-- A master's sync pin and bit clock at a drive edge (R54, R55; log 23). -/
def Lane.driveClock (l : Lane) : Lane :=
  let left := if l.syncBegins then l.cfg.syncLen else l.syncLeft
  { l with bclkPin := l.cfg.driveLevel, fsyncPin := pinLevel (decide (0 < left)), syncLeft := left - 1 }

/-- A drive edge at the present position. An edge of the bit clock restarts a follower's watch (R58). -/
def Lane.drive (l : Lane) : Lane :=
  let l1 := { l.driveBit with half := .driven }
  match l.cfg.role with
  | .master => l1.driveClock
  | .follower => { l1 with watchRunning := true }

/-! ## Leaving a frame (R53, R66, R94) -/

/-- The slot registers at their reset values and the transmit pin at high impedance (R66, R94). A lock notice still
owed, between the arrival that completes lock with SYNC_EARLY on and its frame start, is dropped, where a row of R70
reads it as posted (DEDUCED; log 15). -/
def Lane.abandoned (l : Lane) : Lane :=
  { l with txCell := .quiet, txBits := 0, rxCell := 0, rxBits := 0, rxTarget := .ignore, txPin := .hiZ,
           between := false, checkDue := false, lockNotice := none }

/-- The lane's part of entry to OFF (R53, R57, R94). -/
def Lane.toOff (l : Lane) : Lane :=
  { l.abandoned with state := .off, bclkPin := .hiZ, fsyncPin := .hiZ, watchRunning := false, goodSyncs := 0,
                     lastSync := none, missedRun := 0, syncSample := true, arrivalDue := false, syncLeft := 0 }

/-- Entry to OFF: the lane's part, then the slot map unit's (R53, R90). -/
def State.enterOff (s : State) (n : LaneId) : State := (s.setLane n (s.lane n).toOff).cancelSwap n

/-- LANE_STOPPED with the lane's frame; detail 0 COMPLETE, 1 EARLY (R51, R67). -/
def State.postStopped (s : State) (n : LaneId) (detail : Byte) : State :=
  s.post ⟨.laneStopped, .lane n, some (s.lane n).frameCount, detail⟩

/-- The end of a stopping frame (R51). -/
def State.completeStop (s : State) (n : LaneId) : State := (s.postStopped n 0).enterOff n

/-- A STOPPING follower that loses sync (R67). -/
def State.earlyStop (s : State) (n : LaneId) (cause : LossCause) : State :=
  ((s.setLane n { s.lane n with lastCause := cause }).postStopped n 1).enterOff n

/-! ## Slot start (R95 to R99) -/

/-- Entry `i` of a bank; an index that no bank has reads as the reset contents and is never asked for. -/
def Bank.entry (b : Bank) (i : Nat) : SlotEntry := b.toList.getD i .reset

def SlotEntry.rxTarget (e : SlotEntry) : RxTarget :=
  match e.rxKind with
  | .ignore => .ignore
  | .ring => .ring e.rxRing

/-- Step 1 of R95: SLOT_MARK (R96). -/
def State.postMark (s : State) (n : LaneId) (i : Nat) (e : SlotEntry) : State :=
  if e.mark then s.post ⟨.slotMark, .lane n, some (s.lane n).frameCount, BitVec.ofNat 8 i⟩ else s

/-- Step 2 of R95: the transmit half, and what TxCell is loaded with (R97, R98, R99). -/
def State.transmitHalf (s : State) (n : LaneId) (e : SlotEntry) : State × TxCell :=
  match e.txKind with
  | .quiet => (s, .quiet)
  | .const => (s, .cell (lowBits (s.lane n).cfg.width e.const))
  | .ring =>
    let p := s.removeForLane e.txRing n
    (p.1, .cell p.2)

/-- Steps 2 and 3 of R95 at the lane's registers. -/
def Lane.loadSlot (l : Lane) (tx : TxCell) (rx : RxTarget) : Lane :=
  { l with txCell := tx, txBits := 0, rxTarget := rx, rxCell := 0, rxBits := 0 }

/-- The slot start of slot `i` under the live entry (R95). -/
def State.slotStart (s : State) (n : LaneId) (i : Nat) : State :=
  let e := Bank.entry (s.smap n).liveBank i
  let p := (s.postMark n i e).transmitHalf n e
  p.1.setLane n ((p.1.lane n).loadSlot p.2 e.rxTarget)

/-! ## Frame start (R48, R56, R60, R68, R85) -/

def LockKind.noticeKind : LockKind → NoticeKind
  | .locked => .laneLocked
  | .relocked => .laneRelocked

/-- The lock notice of a frame start that owes one, with the new FrameCount (R56, R60). -/
def State.postLock (s : State) (n : LaneId) (k : Option LockKind) : State :=
  match k with
  | none => s
  | some k => s.post ⟨k.noticeKind, .lane n, some (s.lane n).frameCount, 0⟩

/-- The lane's record at a frame start: FrameCount advances and Position is 0 (R48, R68). -/
def Lane.openFrame (l : Lane) : Lane :=
  { l with frameCount := l.frameCount + 1, position := 0, between := false, lockNotice := none, half := .opening }

/-- A pending exchange is carried out at a frame start (R85), also where MAP_SWAP was taken between the arrival that
completed lock and this frame start, where a row of R92 reads otherwise (DEDUCED; log 27). -/
def State.exchangeIfPending (s : State) (n : LaneId) : State :=
  if (s.smap n).swapPending then s.exchange n (some (s.lane n).frameCount) else s

/-- A frame start in RUNNING: FrameCount, the lock notice, the exchange, and the slot start of slot 0 as part of
the same event (R48, R85). -/
def State.frameStart (s : State) (n : LaneId) : State :=
  ((((s.setLane n (s.lane n).openFrame).postLock n (s.lane n).lockNotice).exchangeIfPending n).slotStart n 0)

/-- The lane's part of a frame start that is taken at a sampling edge, once slot 0 has started: bit 0 of slot 0 is
driven from here, and the bit sampled at this edge is placed (R49, R101, R112). -/
def Lane.atSampledStart (l : Lane) : Lane := { (l.driveBit).placeBit l.rxSample with half := .sampled }

/-- A frame start of a follower with SYNC_EARLY off, at the sampling edge within position 0 (R48). -/
def State.frameStartSampled (s : State) (n : LaneId) : State :=
  let s1 := s.frameStart n
  s1.setLane n (s1.lane n).atSampledStart

/-! ## Lock and loss (R59 to R65) -/

/-- The lane's record when GoodSyncs has reached K (R60). With SYNC_EARLY on the arrival stands in the last
position of the frame before (R57), and the frame start follows at the next drive edge (log 15). -/
def Lane.toLocked (l : Lane) (k : LockKind) : Lane :=
  { l with state := .running, missedRun := 0, lockNotice := some k, half := .sampled, between := false,
           position := if l.cfg.syncEarly then l.cfg.frameLen - 1 else 0 }

/-- Lock at an arrival (R60). With SYNC_EARLY on, a MAP_SWAP taken before the frame start that follows is exchanged at
it (R84, R85; DEDUCED, log 27). -/
def State.lock (s : State) (n : LaneId) (k : LockKind) : State :=
  let s1 := s.setLane n ((s.lane n).toLocked k)
  if (s.lane n).cfg.syncEarly then s1 else s1.frameStartSampled n

/-- The lane's record at entry to HUNT (R65, R66). -/
def Lane.toHunt (l : Lane) (cause : LossCause) : Lane :=
  { l.abandoned with
    state := .hunt, lastCause := cause, missedRun := 0,
    goodSyncs := if cause = .misaligned then 1 else 0,
    lastSync := if cause = .misaligned then some 0 else none }

/-- Entry to HUNT from RUNNING (R65); a misaligned arrival with K = 1 relocks at once. -/
def State.enterHunt (s : State) (n : LaneId) (cause : LossCause) : State :=
  let s1 := (s.setLane n ((s.lane n).toHunt cause)).post
    ⟨.laneLost, .lane n, some (s.lane n).frameCount, BitVec.ofNat 8 cause.code⟩
  if (s1.lane n).goodSyncs = (s1.lane n).cfg.relock then s1.lock n .relocked else s1

/-- The count of a sync arrival in ARMING or HUNT (R59). -/
def Lane.countSync (l : Lane) : Lane :=
  { l with goodSyncs := if l.goodSyncs ≠ 0 ∧ l.lastSync = some l.cfg.frameLen then l.goodSyncs + 1 else 1,
           lastSync := some 0, arrivalDue := false }

end Sys2Proof.Machine
end

