-- ==== Sys2Proof/Machine/Window.lean ====
section
/-! DEFINITION. The command window: the arrival of a command, its checks and its answer (R149 to R153). -/

namespace Sys2Proof.Machine

/-- A meaning that always goes on. -/
abbrev Outcome := Host.Outcome State Fault Refusal

/-- What an owner block answers: the result code and the result data (R150, R151). -/
structure Answer where
  code : Result
  data0 : Word
  data1 : Word
  deriving DecidableEq, Repr

/-- An answer with no result data (R151). -/
def Answer.plain (code : Result) : Answer := ⟨code, 0, 0⟩

/-- Step 5 of R150. -/
def State.answer (s : State) (a : Answer) : State :=
  { s with win := { s.win with result := a.code, rdata0 := a.data0, rdata1 := a.data1 } }

/-- Step 1 of R150. -/
def State.setCmd (s : State) (code : Word) : State := { s with win := { s.win with cmd := code } }

/-- The owner's part of a command: it leaves the state as it is when it refuses (R150). -/
abbrev Owner := State → State × Answer

/-- The refusal of a command in STARTUP (step 2 of R150). -/
def State.refuseNotReady (s : State) (code : Word) : State := (s.setCmd code).answer (.plain .notReady)

/-- A command arrival with a known code (R150). A write of `Cmd` while RESET_N is asserted is none (R170, R175). -/
def arrive (code : Word) (owner : Owner) (s : State) : State :=
  if s.resetLow then s
  else if s.win.ready then
    let p := owner (s.setCmd code)
    p.1.answer p.2
  else s.refuseNotReady code

/-- The owner of a code that names no command (step 3 of R150). -/
def badCodeOwner : Owner := fun s => (s, .plain .badCode)

/-- Every block takes its reset values (R175). The queue of waiting commands, the number of the next free value
and the data pins are outside the part; buffer memory keeps its words until they are cleared (R176). -/
def State.resetWith (s : State) (low : Bool) : State :=
  { State.reset with pending := s.pending, freeCount := s.freeCount, readData := s.readData, mem := s.mem,
                     resetLow := low }

end Sys2Proof.Machine
end

