-- ==== Sys2Proof/Machine/RingCommands.lean ====
section
/-! DEFINITION. The commands on rings (R5 to R13). -/

namespace Sys2Proof.Machine

/-- A width that a ring may have (R5). -/
def widthOk (w : Nat) : Bool := w == 8 || w == 16 || w == 32

/-- The column "After RING_OPEN" of Table 1-1 (R5). -/
def Ring.afterOpen (base length width : Nat) : Ring :=
  { Ring.reset with state := .opened, base := base, length := length, width := width,
                    cap := length * 32 / width, highMark := length * 32 / width }

/-- Two regions share a word. -/
def Ring.overlaps (g : Ring) (base length : Nat) : Bool :=
  g.state == .opened && decide (base < g.base + g.length) && decide (g.base < base + length)

/-- The region shares a word with an OPEN ring (R5). -/
def State.regionTaken (s : State) (base length : Nat) : Bool := s.rings.toList.any fun g => g.overlaps base length

/-- A ring command whose ring must be in range and OPEN (the first two refusals of R6 to R10, R12, R13). -/
def onOpenRing (f : State → RingId → State × Answer) : Owner := fun s =>
  match ringArg s.win.arg0 with
  | none => (s, .plain .badParam)
  | some r => if (s.ring r).state = .closed then (s, .plain .ringState) else f s r

/-- RING_OPEN ring, base, length, width (R5). -/
def ringOpenOwner : Owner := fun s =>
  match ringArg s.win.arg0 with
  | none => (s, .plain .badParam)
  | some r =>
    let base := s.win.arg1.toNat
    let length := s.win.arg2.toNat
    let width := s.win.arg3.toNat
    if !widthOk width || decide (length < 2) || decide (Config.memWords < base + length) then
      (s, .plain .badParam)
    else if (s.ring r).state ≠ .closed then (s, .plain .ringState)
    else if s.regionTaken base length then (s, .plain .overlap)
    else (s.setRing r (.afterOpen base length width), .plain .done)

/-- RING_CLOSE ring (R6). -/
def ringCloseOwner : Owner := onOpenRing fun s r =>
  if (s.ring r).producer ≠ .free ∨ (s.ring r).consumer ≠ .free then (s, .plain .seatBusy)
  else (s.setRing r .reset, .plain .done)

/-- A DMA channel that holds a seat of the ring is ACTIVE (R7). -/
def State.activeAt (s : State) (r : RingId) : Bool :=
  (s.seatedAt 0 r && (s.chan 0).state == .active) || (s.seatedAt 1 r && (s.chan 1).state == .active)

/-- The record of a flushed ring, its Zone still to be evaluated (R7). -/
def Ring.flushed (g : Ring) : Ring :=
  { g with head := g.tail, level := 0, primed := false, underrunEpisode := false, overrunEpisode := false }

/-- The effect of a flush (R7). -/
def State.flush (s : State) (r : RingId) : State :=
  let s1 := (s.setRing r (s.ring r).flushed).rezone r
  if 0 < (s.ring r).level then s1.report r else s1

/-- RING_FLUSH ring (R7). -/
def ringFlushOwner : Owner := onOpenRing fun s r =>
  if s.activeAt r then (s, .plain .seatBusy) else (s.flush r, .plain .done)

/-- RING_MARKS ring, low, high (R8). -/
def ringMarksOwner : Owner := onOpenRing fun s r =>
  let low := s.win.arg1.toNat
  let high := s.win.arg2.toNat
  if low < high ∧ high ≤ (s.ring r).cap then
    ((s.setRing r { s.ring r with lowMark := low, highMark := high }).rezone r, .plain .done)
  else (s, .plain .badParam)

/-- The policy fields as RING_POLICY sets them; Primed becomes false where Prime goes from off to on (R9). -/
def Ring.withPolicy (g : Ring) (e : EmptyPolicy) (f : FullPolicy) (p : Bool) : Ring :=
  { g with emptyPolicy := e, fullPolicy := f, prime := p, primed := g.primed && !(p && !g.prime) }

/-- RING_POLICY ring, empty policy, full policy, prime (R9). -/
def ringPolicyOwner : Owner := onOpenRing fun s r =>
  match emptyPolicyArg s.win.arg1, fullPolicyArg s.win.arg2, flagArg s.win.arg3 with
  | some e, some f, some p => (s.setRing r ((s.ring r).withPolicy e f p), .plain .done)
  | _, _, _ => (s, .plain .badParam)

/-- RING_FILL ring, value (R10). -/
def ringFillOwner : Owner := onOpenRing fun s r =>
  (s.setRing r { s.ring r with fill := lowBits (s.ring r).width (cellOf s.win.arg2 s.win.arg1) }, .plain .done)

/-- RING_STATUS ring (R11, R157). -/
def ringStatusOwner : Owner := fun s =>
  match ringArg s.win.arg0 with
  | none => (s, .plain .badParam)
  | some r => (s, ⟨.done, (s.ring r).levelWord, (s.ring r).statusWord⟩)

/-- RING_STATS ring, clear (R12): the clear argument is checked with the ring number. -/
def ringStatsOwner : Owner := fun s =>
  match ringArg s.win.arg0, flagArg s.win.arg1 with
  | some r, some clear =>
    let g := s.ring r
    if g.state = .closed then (s, .plain .ringState)
    else
      (if clear then s.setRing r { g with underrunCount := 0, overrunCount := 0 } else s,
        ⟨.done, g.underrunCount, g.overrunCount⟩)
  | _, _ => (s, .plain .badParam)

/-- The cell `offset` places after the Head cell (R13). -/
def State.peekCell (s : State) (r : RingId) (offset : Nat) : Cell :=
  let g := s.ring r
  Memory.readCell s.mem g.base g.width ((g.head + offset) % g.cap)

/-- RING_PEEK ring, offset (R13). -/
def ringPeekOwner : Owner := onOpenRing fun s r =>
  let offset := s.win.arg1.toNat
  if (s.ring r).level ≤ offset then (s, .plain .empty)
  else (s, ⟨.done, loHalf (s.peekCell r offset), hiHalf (s.peekCell r offset)⟩)

/-! ## Meanings -/

def execRingOpen (s : State) : Outcome := .next (arrive 0x10 ringOpenOwner s)
def execRingClose (s : State) : Outcome := .next (arrive 0x11 ringCloseOwner s)
def execRingFlush (s : State) : Outcome := .next (arrive 0x12 ringFlushOwner s)
def execRingMarks (s : State) : Outcome := .next (arrive 0x13 ringMarksOwner s)
def execRingPolicy (s : State) : Outcome := .next (arrive 0x14 ringPolicyOwner s)
def execRingFill (s : State) : Outcome := .next (arrive 0x15 ringFillOwner s)
def execRingStatus (s : State) : Outcome := .next (arrive 0x16 ringStatusOwner s)
def execRingStats (s : State) : Outcome := .next (arrive 0x17 ringStatsOwner s)
def execRingPeek (s : State) : Outcome := .next (arrive 0x18 ringPeekOwner s)

end Sys2Proof.Machine
end

