-- ==== Sys2Proof/Machine/SeatCommands.lean ====
section
/-! DEFINITION. ATTACH and DETACH (R29 to R33). -/

namespace Sys2Proof.Machine

def State.setRecord (s : State) (a : Agent) (x : AttachRecord) : State :=
  match a with
  | .pr => { s with pr := { s.pr with record := x } }
  | .pw => { s with pw := { s.pw with record := x } }
  | .dma ch => s.setChan ch { s.chan ch with record := x }

/-- PR takes consumer seats only, PW producer seats only (R29). -/
def Agent.fits : Agent → Side → Bool
  | .pr, .producer => false
  | .pw, .consumer => false
  | _, _ => true

/-- The accepted ATTACH: the seat and the attachment record, and no more (R29, R31). -/
def State.attachAgent (s : State) (a : Agent) (r : RingId) (side : Side) : State :=
  (s.setRing r ((s.ring r).setSeat side (.held (.agent a)))).setRecord a (.taken r side)

/-- ATTACH agent, ring, seat (R29). -/
def attachOwner : Owner := fun s =>
  match agentArg s.win.arg0, ringArg s.win.arg1, sideArg s.win.arg2 with
  | some a, some r, some side =>
    if !a.fits side then (s, .plain .badParam)
    else if (s.ring r).state ≠ .opened then (s, .plain .ringState)
    else if (s.attachOf a).isSome then (s, .plain .agentBusy)
    else if (s.ring r).seat side ≠ .free then (s, .plain .seatBusy)
    else (s.attachAgent a r side, .plain .done)
  | _, _, _ => (s, .plain .badParam)

/-- The agent's data-path state at DETACH: latch, staging and grant cleared, Phase FIRST (R33, R132). -/
def State.clearAgent (s : State) : Agent → State
  | .pr => { s with pr := { s.pr with record := s.pr.record.released, latch := 0 } }
  | .pw => { s with pw := { s.pw with record := s.pw.record.released, staging := 0 } }
  | .dma ch =>
    s.setChan ch { s.chan ch with record := (s.chan ch).record.released, latch := 0, staging := 0, grant := 0,
                                  gap := false, phase := .first }

/-- The agent is a channel in ACTIVE or FAULT (R32). -/
def State.agentRunning (s : State) : Agent → Bool
  | .dma ch => (s.chan ch).state != .idle
  | .pr => false
  | .pw => false

/-- The accepted DETACH (R32, R33). -/
def State.detachAgent (s : State) (a : Agent) (att : Attachment) : State :=
  (s.setRing att.ring ((s.ring att.ring).setSeat att.side .free)).clearAgent a

/-- DETACH agent (R32). -/
def detachOwner : Owner := fun s =>
  match agentArg s.win.arg0 with
  | none => (s, .plain .badParam)
  | some a =>
    match s.attachOf a with
    | none => (s, .plain .notAttached)
    | some att =>
      if s.agentRunning a then (s, .plain .agentBusy) else (s.detachAgent a att, .plain .done)

def execAttach (s : State) : Outcome := .next (arrive 0x20 attachOwner s)
def execDetach (s : State) : Outcome := .next (arrive 0x21 detachOwner s)

end Sys2Proof.Machine
end

