-- ==== Sys2Proof/Machine/LaneCommands.lean ====
section
/-! DEFINITION. The commands on lanes (R46, R50 to R53). -/

namespace Sys2Proof.Machine

/-- A lane command whose lane must be in range. -/
def onLane (f : State → LaneId → State × Answer) : Owner := fun s =>
  match laneArg s.win.arg0 with
  | none => (s, .plain .badParam)
  | some n => f s n

/-- An entry that a raise of SLOTS brings into the counted range names no ring (R74). -/
def SlotEntry.unnamed (e : SlotEntry) : SlotEntry :=
  { e with txKind := if e.txKind = .ring then .quiet else e.txKind,
           rxKind := if e.rxKind = .ring then .ignore else e.rxKind }

/-- The live bank after a raise of SLOTS from `old` to `new`; a lowering changes no entry (R74). -/
def Bank.raised (b : Bank) (old new : Nat) : Bank :=
  b.mapIdx fun i e => if old ≤ i ∧ i < new then e.unnamed else e

/-- The slot map unit's part of a change of SLOTS (R74). -/
def State.slotsChanged (s : State) (n : LaneId) (old new : Nat) : State :=
  s.setSmap n ((s.smap n).setLive (Bank.raised (s.smap n).liveBank old new))

/-- The parameter is SLOTS or WIDTH (R46). -/
def paramMovesSeats (param : Nat) : Bool := param == 1 || param == 2

def State.putParam (s : State) (n : LaneId) (param value : Nat) : State :=
  let old := (s.lane n).cfg.slots
  let s1 := s.setLane n { s.lane n with cfg := (s.lane n).cfg.put param value }
  if param = 1 then s1.slotsChanged n old value else s1

/-- LANE_SET lane, parameter, value (R46, R74). -/
def laneSetOwner : Owner := fun s =>
  match laneArg s.win.arg0 with
  | none => (s, .plain .badParam)
  | some n =>
    let param := s.win.arg1.toNat
    let value := s.win.arg2.toNat
    if !laneParamOk param value then (s, .plain .badParam)
    else if (s.lane n).state ≠ .off then (s, .plain .laneState)
    else if paramMovesSeats param && (s.laneHasSeat n || (s.smap n).swapPending) then (s, .plain .laneState)
    else (s.putParam n param value, .plain .done)

/-- Step 1 of R50, with the lane's bookkeeping at its start. -/
def Lane.cleared (l : Lane) : Lane :=
  { l with frameCount := 0, lastCause := .none, goodSyncs := 0, lastSync := none, missedRun := 0,
           syncSample := true, position := 0, half := .sampled, between := false, arrivalDue := false,
           checkDue := false, lockNotice := none, syncLeft := 0 }

/-- A master's start: the first drive edge, with the frame start and the slot start of slot 0 taken at it (R50). -/
def State.startMaster (s : State) (n : LaneId) : State :=
  let s1 := (s.setLane n { (s.lane n).cleared with state := .running, lockNotice := some .locked }).frameStart n
  s1.setLane n (s1.lane n).drive

/-- A follower's start (R50, R58). -/
def State.startFollower (s : State) (n : LaneId) : State :=
  s.setLane n { (s.lane n).cleared with state := .arming, watchRunning := true }

/-- LANE_START lane (R50). -/
def laneStartOwner : Owner := onLane fun s n =>
  if (s.lane n).state ≠ .off then (s, .plain .laneState)
  else
    match (s.lane n).cfg.role with
    | .master => (s.startMaster n, .plain .done)
    | .follower => (s.startFollower n, .plain .done)

/-- LANE_STOP lane (R51). The sync that a SYNC_EARLY master's drive edge has raised in position F − 1 before the stop
is taken stays high until the lane is OFF (R55; DEDUCED, log 26). -/
def laneStopOwner : Owner := onLane fun s n =>
  match (s.lane n).state with
  | .running => (s.setLane n { s.lane n with state := .stopping }, .plain .accepted)
  | .arming => (s.enterOff n, .plain .done)
  | .hunt => (s.enterOff n, .plain .done)
  | .stopping => (s, .plain .already)
  | .off => (s, .plain .laneState)

/-- LANE_ABORT lane (R52). -/
def laneAbortOwner : Owner := onLane fun s n =>
  if (s.lane n).state = .off then (s, .plain .laneState) else (s.enterOff n, .plain .done)

def execLaneSet (s : State) : Outcome := .next (arrive 0x30 laneSetOwner s)
def execLaneStart (s : State) : Outcome := .next (arrive 0x31 laneStartOwner s)
def execLaneStop (s : State) : Outcome := .next (arrive 0x32 laneStopOwner s)
def execLaneAbort (s : State) : Outcome := .next (arrive 0x33 laneAbortOwner s)

end Sys2Proof.Machine
end

