-- ==== Sys2Proof/Machine/MapCommands.lean ====
section
/-! DEFINITION. The map commands (R76 to R84, R89). -/

namespace Sys2Proof.Machine

/-- A slot argument, 0 to 31. -/
def slotArg (w : Word) : Option (Fin 32) := if h : w.toNat < 32 then some ⟨w.toNat, h⟩ else none

/-- One entry of the edit bank changed. -/
def State.editEntry (s : State) (n : LaneId) (slot : Fin 32) (f : SlotEntry → SlotEntry) : State :=
  let b := (s.smap n).editBank
  s.setSmap n ((s.smap n).setEdit (b.set slot.val (f b[slot.val])))

/-- The entry as MAP_WRITE writes it; Const is unchanged (R77, Table 8-4). -/
def SlotEntry.written (e : SlotEntry) (tx : TxKind) (txWord rxWord : Word) : SlotEntry :=
  { txKind := tx, txRing := ringField txWord, const := e.const, rxKind := rxKindArg rxWord,
    rxRing := ringField rxWord, mark := rxWord.getLsbD 8 }

/-- MAP_WRITE lane, slot, transmit word, receive word (R76, R77, R156). -/
def mapWriteOwner : Owner := onLane fun s n =>
  match slotArg s.win.arg1, txKindArg s.win.arg2 with
  | some slot, some tx =>
    if (s.smap n).swapPending then (s, .plain .swapPending)
    else (s.editEntry n slot fun e => e.written tx s.win.arg2 s.win.arg3, .plain .done)
  | _, _ => (s, .plain .badParam)

/-- MAP_CONST lane, slot, value (R73, R76, R78). -/
def mapConstOwner : Owner := onLane fun s n =>
  match slotArg s.win.arg1 with
  | none => (s, .plain .badParam)
  | some slot =>
    if (s.smap n).swapPending then (s, .plain .swapPending)
    else
      (s.editEntry n slot fun e =>
          { e with const := lowBits (s.lane n).cfg.width (cellOf s.win.arg3 s.win.arg2) },
        .plain .done)

/-- MAP_CLEAR lane (R76, R79). -/
def mapClearOwner : Owner := onLane fun s n =>
  if (s.smap n).swapPending then (s, .plain .swapPending)
  else (s.setSmap n ((s.smap n).setEdit (Vector.replicate 32 .reset)), .plain .done)

/-- MAP_COPY lane (R76, R80). -/
def mapCopyOwner : Owner := onLane fun s n =>
  if (s.smap n).swapPending then (s, .plain .swapPending)
  else (s.setSmap n ((s.smap n).setEdit (s.smap n).liveBank), .plain .done)

/-- MAP_READ lane, bank, slot, part (R81): bank false is LIVE, part false is FIELDS. -/
def mapReadOwner : Owner := onLane fun s n =>
  match flagArg s.win.arg1, slotArg s.win.arg2, flagArg s.win.arg3 with
  | some edit, some slot, some part =>
    let b := if edit then (s.smap n).editBank else (s.smap n).liveBank
    let e := b[slot.val]
    (s, if part then ⟨.done, loHalf e.const, hiHalf e.const⟩ else ⟨.done, e.txWord, e.rxWord⟩)
  | _, _, _ => (s, .plain .badParam)

/-- An accepted swap on a lane in OFF (R41, R84, R88): reserved, taken, released and exchanged in one. -/
def State.swapInOff (s : State) (n : LaneId) : State := (s.reserveSeats n).exchange n none

/-- An accepted swap on a lane that is not in OFF (R84). -/
def State.swapLater (s : State) (n : LaneId) : State :=
  (s.reserveSeats n).setSmap n { s.smap n with swapPending := true }

/-- MAP_SWAP lane (R82 to R84). -/
def mapSwapOwner : Owner := onLane fun s n =>
  if (s.lane n).state = .stopping then (s, .plain .laneState)
  else if (s.smap n).swapPending then (s, .plain .swapPending)
  else
    match s.validateSwap n with
    | some (code, slot, direction) => (s, ⟨code, slot, direction⟩)
    | none =>
      if (s.lane n).state = .off then (s.swapInOff n, .plain .done) else (s.swapLater n, .plain .accepted)

/-- MAP_CANCEL lane (R89). -/
def mapCancelOwner : Owner := onLane fun s n =>
  if (s.smap n).swapPending then (s.dropSwap n, .plain .done) else (s, .plain .already)

def execMapWrite (s : State) : Outcome := .next (arrive 0x40 mapWriteOwner s)
def execMapConst (s : State) : Outcome := .next (arrive 0x41 mapConstOwner s)
def execMapClear (s : State) : Outcome := .next (arrive 0x42 mapClearOwner s)
def execMapCopy (s : State) : Outcome := .next (arrive 0x43 mapCopyOwner s)
def execMapRead (s : State) : Outcome := .next (arrive 0x44 mapReadOwner s)
def execMapSwap (s : State) : Outcome := .next (arrive 0x45 mapSwapOwner s)
def execMapCancel (s : State) : Outcome := .next (arrive 0x46 mapCancelOwner s)

end Sys2Proof.Machine
end

