-- ==== Sys2Proof/Machine/DmaCommands.lean ====
section
/-! DEFINITION. The commands on DMA channels and on the notice unit (R130, R133, R134, R163). -/

namespace Sys2Proof.Machine

/-- A channel command whose channel must be in range. -/
def onChan (f : State → ChanId → State × Answer) : Owner := fun s =>
  match chanArg s.win.arg0 with
  | none => (s, .plain .badParam)
  | some ch => f s ch

/-- DMA_SET channel, setting, value (R130). -/
def dmaSetOwner : Owner := onChan fun s ch =>
  if !dmaSettingOk s.win.arg1.toNat s.win.arg2.toNat then (s, .plain .badParam)
  else if (s.chan ch).state ≠ .idle then (s, .plain .agentBusy)
  else (s.setChan ch ((s.chan ch).put s.win.arg1.toNat s.win.arg2), .plain .done)

/-- Steps 1 to 3 of R133. -/
def Channel.started (c : Channel) : Channel :=
  { c with state := .active, grant := 0, latch := 0, staging := 0, phase := .first, gap := false,
           tally := match c.mode with
             | .count => c.count
             | .free => 0 }

/-- DMA_GO channel (R133). -/
def dmaGoOwner : Owner := onChan fun s ch =>
  if (s.chan ch).attach = none then (s, .plain .notAttached)
  else if (s.chan ch).state ≠ .idle then (s, .plain .agentBusy)
  else ((s.setChan ch (s.chan ch).started).evaluate ch, .plain .done)

/-- The record of a halted channel (R134); a halt ends a re-assertion gap (log 16). -/
def Channel.halted (c : Channel) : Channel :=
  { c with state := .idle, grant := 0, latch := 0, staging := 0, phase := .first, gap := false }

/-- DMA_HALT channel (R134). -/
def dmaHaltOwner : Owner := onChan fun s ch =>
  if (s.chan ch).state = .idle then (s, .plain .already)
  else (s.setChan ch (s.chan ch).halted, .plain .done)

/-- The mask in force after NOTICE_MASK: codes 1 to 15 as written, 16 and 17 enabled, the rest 0 (R163). -/
def maskInForce (lo : Word) : BitVec 32 := BitVec.ofNat 32 (lo.toNat / 2 * 2 + 0x30000)

/-- NOTICE_MASK (R163): its result data is the mask in force. The enables that `Arg1` names cannot be written. -/
def noticeMaskOwner : Owner := fun s =>
  let m := maskInForce s.win.arg0
  ({ s with notices := { s.notices with mask := m } }, ⟨.done, loHalf m, hiHalf m⟩)

def execDmaSet (s : State) : Outcome := .next (arrive 0x50 dmaSetOwner s)
def execDmaGo (s : State) : Outcome := .next (arrive 0x51 dmaGoOwner s)
def execDmaHalt (s : State) : Outcome := .next (arrive 0x52 dmaHaltOwner s)
def execNoticeMask (s : State) : Outcome := .next (arrive 0x60 noticeMaskOwner s)

end Sys2Proof.Machine
end

