-- ==== Sys2Proof/Machine/Ports.lean ====
section
/-! DEFINITION. The register ports PR and PW (R116 to R127). -/

namespace Sys2Proof.Machine

/-- The data pins carry the word of a read. -/
def State.drives (s : State) (w : Word) : State := { s with readData := w }

/-- A read strobe while RESET_N is asserted is no access, and its word has no defined value (R170; log 9). -/
def State.undefinedRead (s : State) : State :=
  { s with readData := Config.undefinedRead s.freeCount, freeCount := s.freeCount + 1 }

/-- Latch takes the high half at a read of a 32-bit ring (R117, R118, R119). -/
def State.latchPr (s : State) (r : RingId) (c : Cell) : State :=
  if (s.ring r).width = 32 then { s with pr := { s.pr with latch := hiHalf c } } else s

/-- A read of PR_DataLo (R117, R118, R120). -/
def State.prRead (s : State) : State :=
  match s.pr.attach with
  | none => (s.setPrStray).drives 0
  | some a =>
    let p := s.removeForHost a.ring
    let s1 := (p.1.latchPr a.ring p.2.1).drives (loHalf p.2.1)
    if p.2.2 then s1 else s1.setUnderflow

/-- A write of PW_DataHi (R122, R125). -/
def State.pwStage (s : State) (v : Word) : State :=
  match s.pw.attach with
  | none => s.setPwStray
  | some a => if (s.ring a.ring).width = 32 then { s with pw := { s.pw with staging := v } } else s

/-- The cell that a low write forms (R123, R139). -/
def formCell (width : Nat) (staging v : Word) : Cell :=
  if width = 32 then cellOf staging v else lowBits width (cellOf 0 v)

/-- A write of PW_DataLo (R123, R124, R125). -/
def State.pwPush (s : State) (v : Word) : State :=
  match s.pw.attach with
  | none => s.setPwStray
  | some a =>
    let p := s.appendClaim a.ring (formCell (s.ring a.ring).width s.pw.staging v) .host
    let s1 := { p.1 with pw := { p.1.pw with staging := 0 } }
    if p.2 then s1 else s1.setOverflow

/-- A bus access is taken only while RESET_N is high (R170). -/
def State.unlessReset (s : State) (f : State → State) : State := if s.resetLow then s else f s

def execPrDataLoRead (s : State) : Outcome := .next (if s.resetLow then s.undefinedRead else s.prRead)
def execPwDataHiWrite (v : Word) (s : State) : Outcome := .next (s.unlessReset (·.pwStage v))
def execPwDataLoWrite (v : Word) (s : State) : Outcome := .next (s.unlessReset (·.pwPush v))
def execPrFlagsWrite (v : Word) (s : State) : Outcome := .next (s.unlessReset fun s => { s with pr := s.pr.clearFlags v })
def execPwFlagsWrite (v : Word) (s : State) : Outcome := .next (s.unlessReset fun s => { s with pw := s.pw.clearFlags v })

end Sys2Proof.Machine
end

