-- ==== Sys2Proof/Machine/Dma.lean ====
section
/-! DEFINITION. Data accesses of the DMA channels (R131, R132, R138 to R144), acknowledged strobes (R172) and the
end of a re-assertion gap (R173). -/

namespace Sys2Proof.Machine

/-! ## The completion of a cell access (R141, R142) -/

/-- Steps 1 and 2 of R141. -/
def Channel.stepped (c : Channel) : Channel :=
  { c with grant := c.grant - 1,
           tally := match c.mode with
             | .count => c.tally - 1
             | .free => c.tally + 1 }

/-- DMA_WRAP at the access that takes Transferred from 65535 to 0 (R142). -/
def State.postWrap (s : State) (ch : ChanId) : State :=
  if (s.chan ch).mode = .free ∧ (s.chan ch).tally = 0 then s.post ⟨.dmaWrap, .dma ch, none, 0⟩ else s

/-- A grant recorded by the access that ended the one before begins a re-assertion gap (R136, R173). An access inside
a running gap that leaves no grant ends that gap, so a grant of a later level report raises DRQn at once
(DEDUCED; log 16). -/
def State.reevaluate (s : State) (ch : ChanId) : State :=
  let s1 := s.evaluate ch
  s1.setChan ch { s1.chan ch with gap := decide (0 < (s1.chan ch).grant) }

/-- Steps 1 to 5 of R141. -/
def State.completeAccess (s : State) (ch : ChanId) : State :=
  let s1 := (s.setChan ch (s.chan ch).stepped).postWrap ch
  let c := s1.chan ch
  if c.mode = .count ∧ c.tally = 0 then
    (s1.setChan ch { c with state := .idle, gap := false }).post ⟨.dmaDone, .dma ch, none, 0⟩
  else if c.grant = 0 then s1.reevaluate ch
  else s1

/-! ## Low accesses -/

/-- A cell access of a READ channel (R138): the low half, or the cell, is returned. -/
def State.chanRemove (s : State) (ch : ChanId) (r : RingId) : State × Word :=
  let p := s.removeForHost r
  let s1 := p.1.setChan ch { p.1.chan ch with latch := if (s.ring r).width = 32 then hiHalf p.2.1 else 0 }
  (s1.completeAccess ch, loHalf p.2.1)

/-- A cell access of a WRITE channel (R139). -/
def State.chanAppend (s : State) (ch : ChanId) (r : RingId) (v : Word) : State :=
  let p := s.appendClaim r (formCell (s.ring r).width (s.chan ch).staging v) .host
  let s1 := p.1.setChan ch { p.1.chan ch with staging := 0 }
  s1.completeAccess ch

/-- A stray access (R143): FAULT, and Fill for a read, whichever the channel's direction (log 11). -/
def State.strayAccess (s : State) (ch : ChanId) (r : RingId) (write : Option Word) : State × Word :=
  let c := s.chan ch
  let g := s.ring r
  match write with
  | some _ =>
    ((s.setChan ch { c with state := .fault, staging := 0 }).post ⟨.dmaFault, .dma ch, none, 0⟩, 0)
  | none =>
    ((s.setChan ch { c with state := .fault, latch := if g.width = 32 then hiHalf g.fill else c.latch }).post
        ⟨.dmaFault, .dma ch, none, 0⟩, loHalf g.fill)

/-- A low access (R138, R139, R143, R144). `write` is the word of a write, none for a read; the word answered is
what a read returns. -/
def State.lowAccess (s : State) (ch : ChanId) (write : Option Word) : State × Word :=
  let c := s.chan ch
  match c.attach with
  | none => (s.setChanStray ch, 0)
  | some a =>
    if c.state ≠ .active then (s.setChanStray ch, 0)
    else if c.grant = 0 then s.strayAccess ch a.ring write
    else
      match a.side, write with
      | .consumer, none => s.chanRemove ch a.ring
      | .producer, some v => (s.chanAppend ch a.ring v, 0)
      | _, _ => (s, 0)

/-! ## High accesses (R140) -/

/-- A high access of a channel that holds the seat `side` of a 32-bit ring. -/
def State.highAccess (s : State) (ch : ChanId) (side : Side) (write : Option Word) : State × Word :=
  let c := s.chan ch
  match side, write with
  | .consumer, none => (s, c.latch)
  | .consumer, some _ => (s, 0)
  | .producer, none => (s, c.staging)
  | .producer, some v =>
    if c.state = .active then (s.setChan ch { c with staging := v }, 0) else (s.setChanStray ch, 0)

/-! ## The two access forms (R131, R132) -/

/-- An addressed access of Dn_DataLo. -/
def State.addressedLow (s : State) (ch : ChanId) (write : Option Word) : State × Word :=
  match (s.chan ch).form with
  | .acked => (s, 0)
  | .addressed => s.lowAccess ch write

/-- An addressed write of Dn_DataHi: ignored on a narrower ring (R132), a stray of an unattached channel (R144). -/
def State.addressedHighWrite (s : State) (ch : ChanId) (v : Word) : State :=
  match (s.chan ch).form with
  | .acked => s
  | .addressed =>
    match (s.chan ch).attach with
    | none => s.setChanStray ch
    | some a => if (s.ring a.ring).width = 32 then (s.highAccess ch a.side (some v)).1 else s

def Phase.other : Phase → Phase
  | .first => .second
  | .second => .first

/-- The half that an acknowledged strobe reaches on a 32-bit ring: low first for READ, high first for WRITE. -/
def Phase.high (p : Phase) : Side → Bool
  | .consumer => p == .second
  | .producer => p == .first

/-- An acknowledged strobe at one channel (R131, R132). -/
def State.ackAccess (s : State) (ch : ChanId) (write : Option Word) : State × Word :=
  let c := s.chan ch
  match c.form with
  | .addressed => (s, 0)
  | .acked =>
    match c.attach with
    | none => s.lowAccess ch write
    | some a =>
      if (s.ring a.ring).width = 32 then
        let s1 := s.setChan ch { c with phase := c.phase.other }
        if c.phase.high a.side then s1.highAccess ch a.side write else s1.lowAccess ch write
      else s.lowAccess ch write

/-- A read strobe's word stands on the data pins; a write strobe leaves them. -/
def State.drivesIfRead (s : State) (write : Option Word) (w : Word) : State :=
  match write with
  | none => s.drives w
  | some _ => s

/-- Both channels take the strobe, in the order that the spec leaves open (log 10); the data pins carry the OR of
the two words (R172). -/
def State.ackBoth (s : State) (write : Option Word) : State :=
  let d1First := Config.ackD1First s.freeCount
  let p := { s with freeCount := s.freeCount + 1 }.ackAccess (if d1First then 1 else 0) write
  let q := p.1.ackAccess (if d1First then 0 else 1) write
  q.1.drivesIfRead write (p.2 ||| q.2)

/-- An acknowledged strobe (R172). With no acknowledge input asserted there is none. -/
def State.ackStrobe (s : State) (dak0 dak1 : Bool) (write : Option Word) : State :=
  match dak0, dak1 with
  | false, false => s
  | true, false => (s.ackAccess 0 write).1.drivesIfRead write (s.ackAccess 0 write).2
  | false, true => (s.ackAccess 1 write).1.drivesIfRead write (s.ackAccess 1 write).2
  | true, true => s.ackBoth write

/-- A strobe while RESET_N is asserted (R170). -/
def State.ackInReset (s : State) (dak0 dak1 : Bool) (write : Option Word) : State :=
  match write with
  | none => if dak0 || dak1 then s.undefinedRead else s
  | some _ => s

/-! ## Meanings -/

def execDnStatusWrite (ch : ChanId) (v : Word) (s : State) : Outcome :=
  .next (s.unlessReset fun s => s.setChan ch ((s.chan ch).clearStray v))
def execDnDataLoRead (ch : ChanId) (s : State) : Outcome :=
  .next (if s.resetLow then s.undefinedRead else (s.addressedLow ch none).1.drives (s.addressedLow ch none).2)
def execDnDataLoWrite (ch : ChanId) (v : Word) (s : State) : Outcome :=
  .next (s.unlessReset fun s => (s.addressedLow ch (some v)).1)
def execDnDataHiWrite (ch : ChanId) (v : Word) (s : State) : Outcome :=
  .next (s.unlessReset (·.addressedHighWrite ch v))
def execAcknowledgedStrobe (dak0 dak1 : Bool) (write : Option Word) (s : State) : Outcome :=
  .next (if s.resetLow then s.ackInReset dak0 dak1 write else s.ackStrobe dak0 dak1 write)

/-- The re-assertion gap of DRQn ends (R173): the pin follows the request line again. -/
def execDrqReassert (ch : ChanId) (s : State) : Outcome :=
  .next (s.setChan ch { s.chan ch with gap := false })

end Sys2Proof.Machine
end

