-- ==== Sys2Proof/Machine/Bus.lean ====
section
/-! DEFINITION. The pop of the notice queue (R166), writes of registers by address (R170, R171), unknown codes,
resets and start-up (R158, R175 to R178), and what a register shows (Table 10-1). -/

namespace Sys2Proof.Machine

/-! ## The pop (R166) -/

/-- Step 3 of R166: the record that carries Lost. -/
def NoticeUnit.appendLost (u : NoticeUnit) : NoticeUnit :=
  if u.lost = 0 then u else { u with queue := u.queue ++ [⟨.noticeLost, .part, none, u.lost⟩], lost := 0 }

def NoticeUnit.pop (u : NoticeUnit) : NoticeUnit :=
  match u.queue with
  | [] => u
  | _ :: rest => { u with queue := rest }.appendLost

def State.popNotice (s : State) : State := { s with notices := s.notices.pop }

/-- The written value is ignored (R166). -/
def execNoticePop (_value : Word) (s : State) : Outcome := .next (s.unlessReset (·.popNotice))

/-! ## Resets and start-up -/

/-- The end of start-up as one event (R178): every word is cleared, the window is READY, STARTUP_DONE is posted. -/
def State.endStartup (s : State) : State :=
  { s with clearAddr := Config.memWords, mem := [], win := { s.win with ready := true } }.post
    ⟨.startupDone, .part, none, 0⟩

/-- Start-up runs: RESET_N is high and the window is in STARTUP (R175, R176). -/
def State.starting (s : State) : Bool := !s.resetLow && !s.win.ready

/-- What a write of `Cmd` that meets the reset pin finds once the reset is taken: the window in STARTUP (R159). A
SOFT_RESET leaves the reset values. -/
def State.answerMet (s : State) (code : Word) : State := if code = 0x70 then s else s.refuseNotReady code

/-- RESET_N is driven low (R175), and a write of `Cmd` that meets the pin, if one does, is taken after the reset
(R159). Where the pin is low already no write meets it: a strobe is no access (R170; log 30). -/
def execReset (s : State) (met : Option Word := none) : Outcome :=
  let t := s.resetWith true
  .next (match met with
    | none => t
    | some code => if s.resetLow then t else t.answerMet code)

/-- RESET_N goes high: start-up begins with clear address 0 (R175). With RESET_N high already there is no such
event. -/
def execResetRelease (s : State) : Outcome :=
  .next (if s.resetLow then { s with resetLow := false, clearAddr := 0, period := 0 } else s)

/-- The end of start-up, whatever is left of the clearing (R178; log 6). -/
def execStartupEnd (s : State) : Outcome := .next (if s.starting then s.endStartup else s)

/-- A soft reset; start-up begins when the write of `Cmd` completes (R158, R175). -/
def State.softReset (s : State) : State := s.resetWith false

/-- SOFT_RESET is taken in READY and in STARTUP (R158). -/
def execSoftReset (s : State) : Outcome := .next (s.unlessReset (·.softReset))

/-! ## A write of `Cmd` with any code (R150, Table 8-3) -/

/-- The owner of a code other than SOFT_RESET's. -/
def ownerOf (code : Nat) : Owner :=
  match code with
  | 0x10 => ringOpenOwner
  | 0x11 => ringCloseOwner
  | 0x12 => ringFlushOwner
  | 0x13 => ringMarksOwner
  | 0x14 => ringPolicyOwner
  | 0x15 => ringFillOwner
  | 0x16 => ringStatusOwner
  | 0x17 => ringStatsOwner
  | 0x18 => ringPeekOwner
  | 0x20 => attachOwner
  | 0x21 => detachOwner
  | 0x30 => laneSetOwner
  | 0x31 => laneStartOwner
  | 0x32 => laneStopOwner
  | 0x33 => laneAbortOwner
  | 0x40 => mapWriteOwner
  | 0x41 => mapConstOwner
  | 0x42 => mapClearOwner
  | 0x43 => mapCopyOwner
  | 0x44 => mapReadOwner
  | 0x45 => mapSwapOwner
  | 0x46 => mapCancelOwner
  | 0x50 => dmaSetOwner
  | 0x51 => dmaGoOwner
  | 0x52 => dmaHaltOwner
  | 0x60 => noticeMaskOwner
  | _ => badCodeOwner

/-- A write of `Cmd` (R150, R158). -/
def State.writeCmd (s : State) (code : Word) : State :=
  if code = 0x70 then s.unlessReset (·.softReset) else arrive code (ownerOf code.toNat) s

/-- BAD_CODE: a write of `Cmd` with a code that names no command. -/
def execBadCode (code : Word) (s : State) : Outcome := .next (s.writeCmd code)

/-! ## A write by address (R170, R171, Table 10-1) -/

/-- The write reaches the register's owner. Only `Arg0` to `Arg3` have no more behaviour than to store; a write of
a read-only or unassigned address is ignored. -/
def State.writeRegister (s : State) (address : RegAddr) (v : Word) : State :=
  match address.toNat with
  | 0x00 => s.writeCmd v
  | 0x01 => { s with win := { s.win with arg0 := v } }
  | 0x02 => { s with win := { s.win with arg1 := v } }
  | 0x03 => { s with win := { s.win with arg2 := v } }
  | 0x04 => { s with win := { s.win with arg3 := v } }
  | 0x13 => s.popNotice
  | 0x23 => { s with pr := s.pr.clearFlags v }
  | 0x24 => s.pwPush v
  | 0x25 => s.pwStage v
  | 0x27 => { s with pw := s.pw.clearFlags v }
  | 0x30 => (s.addressedLow 0 (some v)).1
  | 0x31 => s.addressedHighWrite 0 v
  | 0x32 => s.setChan 0 ((s.chan 0).clearStray v)
  | 0x34 => (s.addressedLow 1 (some v)).1
  | 0x35 => s.addressedHighWrite 1 v
  | 0x36 => s.setChan 1 ((s.chan 1).clearStray v)
  | _ => s

/-- REGISTER_WRITE: the row's addresses are those with no behaviour of their own (WellFormed); any other address
does what a write of it does (log 21). -/
def execRegisterWrite (address : RegAddr) (v : Word) (s : State) : Outcome :=
  .next (s.unlessReset (·.writeRegister address v))

/-! ## What a register shows (R164 to R171, Table 10-1) -/

/-- The value a read of a register without a side effect returns, RESET_N high; such a read changes nothing
(R171; log 20). The data registers whose read has an effect, PR_DataLo and Dn_DataLo, and every address that has
no register, give 0 here. -/
def State.readRegister (s : State) (address : RegAddr) : Word :=
  match address.toNat with
  | 0x00 => s.win.cmd
  | 0x01 => s.win.arg0
  | 0x02 => s.win.arg1
  | 0x03 => s.win.arg2
  | 0x04 => s.win.arg3
  | 0x05 => s.win.result.code
  | 0x06 => s.win.rdata0
  | 0x07 => s.win.rdata1
  | 0x08 => s.globalStatusWord
  | 0x10 => s.notices.headWord
  | 0x11 => s.notices.frameWord
  | 0x12 => s.notices.detailWord
  | 0x21 => s.pr.latch
  | 0x22 => s.prLevelWord
  | 0x23 => s.pr.flagsWord
  | 0x25 => s.pw.staging
  | 0x26 => s.pwLevelWord
  | 0x27 => s.pw.flagsWord
  | 0x31 => s.dataHiWord 0
  | 0x32 => (s.chan 0).statusWord
  | 0x33 => (s.chan 0).tally
  | 0x35 => s.dataHiWord 1
  | 0x36 => (s.chan 1).statusWord
  | 0x37 => (s.chan 1).tally
  | 0x40 => s.laneStatusWord 0
  | 0x41 => (s.lane 0).frameCount
  | 0x42 => s.laneStatusWord 1
  | 0x43 => (s.lane 1).frameCount
  | 0x44 => s.laneStatusWord 2
  | 0x45 => (s.lane 2).frameCount
  | 0x46 => s.laneStatusWord 3
  | 0x47 => (s.lane 3).frameCount
  | _ => 0

/-! ## One reference-clock period of start-up (R176) -/

/-- What the start-up unit does in the present period: nothing before period 8, then one word a period, and the end
of start-up with the last word, in period 4103 (log 2). -/
def State.startupPeriod (s : State) : State :=
  if s.period < Config.firstClearPeriod then { s with period := s.period + 1 }
  else if s.clearAddr + 1 < Config.memWords then
    { s with mem := Memory.clearWord s.mem s.clearAddr, clearAddr := s.clearAddr + 1, period := s.period + 1 }
  else { s with period := s.period + 1 }.endStartup

/-- A step with no command waiting: one reference-clock period for the start-up unit, and nothing else. -/
def State.idle (s : State) : State := if s.starting then s.startupPeriod else s

end Sys2Proof.Machine
end

