-- ==== Sys2Proof/Machine/LaneEvents.lean ====
section
/-! DEFINITION. The events of lanes. Each is taken only where the lane's framing produces it, and otherwise changes
nothing (log 3). -/

namespace Sys2Proof.Machine

/-! ## Sync (R59 to R67) -/

/-- A sync arrival that the latest sampling edge found, away from a check point. In OFF the pin is ignored. -/
def State.syncArrival (s : State) (n : LaneId) : State :=
  let l := s.lane n
  if l.arrivalDue && !l.checkDue && l.cfg.role == .follower then
    match l.state with
    | .off => s
    | .arming =>
      let s1 := s.setLane n l.countSync
      if l.countSync.goodSyncs = l.cfg.relock then s1.lock n .locked else s1
    | .hunt =>
      let s1 := s.setLane n l.countSync
      if l.countSync.goodSyncs = l.cfg.relock then s1.lock n .relocked else s1
    | .running => (s.setLane n { l with arrivalDue := false }).enterHunt n .misaligned
    | .stopping => (s.setLane n { l with arrivalDue := false }).earlyStop n .misaligned
  else s

/-- The frame start that follows a check point of a RUNNING follower: here with SYNC_EARLY off, at the next drive
edge with SYNC_EARLY on (R62, R63). -/
def State.afterCheck (s : State) (n : LaneId) : State :=
  if (s.lane n).cfg.syncEarly then s else s.frameStartSampled n

/-- A check point is taken once the slot end of the same edge has been (R62). -/
def Lane.checkTaken (l : Lane) : Bool := l.checkDue && !l.slotEndDue && l.cfg.role == .follower

/-- The record with the check point taken. -/
def Lane.checked (l : Lane) : Lane := { l with checkDue := false, arrivalDue := false }

/-- The check point of a follower (R51, R61 to R63, R67). -/
def State.syncCheckPoint (s : State) (n : LaneId) : State :=
  let l := s.lane n
  if l.checkTaken then
    match l.state with
    | .running =>
      if l.arrivalDue then (s.setLane n { l.checked with missedRun := 0 }).afterCheck n
      else if l.missedRun + 1 ≤ l.cfg.flywheel then
        (s.setLane n { l.checked with missedRun := l.missedRun + 1 }).afterCheck n
      else (s.setLane n l.checked).enterHunt n .missed
    | .stopping =>
      if l.between then (s.setLane n l.checked).completeStop n
      else s.setLane n { l.checked with missedRun := if l.arrivalDue then 0 else l.missedRun }
    | .off => s
    | .arming => s
    | .hunt => s
  else s

/-- The expiry of a follower's clock watch (R58, R71). With SYNC_EARLY on, one taken between a found check point and
the drive edge of its frame start (R62) sends the lane to HUNT with no frame start and FrameCount as it stands, where R71
reads a frame start first (DEDUCED; log 31). -/
def State.watchExpiry (s : State) (n : LaneId) : State :=
  let l := s.lane n
  if l.watchRunning && l.cfg.role == .follower then
    let e := { l with watchRunning := false }
    match l.state with
    | .off => s
    | .arming => s.setLane n { e with goodSyncs := 0, lastSync := none }
    | .hunt => s.setLane n { e with goodSyncs := 0, lastSync := none }
    | .running => (s.setLane n e).enterHunt n .clockLost
    | .stopping => (s.setLane n e).earlyStop n .clockLost
  else s

/-! ## Frames and slots (R48, R51, R95, R102) -/

/-- A frame start at a drive edge (R48). -/
def State.frameStartEvent (s : State) (n : LaneId) : State :=
  if (s.lane n).frameStartDue then s.frameStart n else s

/-- The end of a stopping frame (R51). -/
def State.endOfFrame (s : State) (n : LaneId) : State :=
  if (s.lane n).endOfFrameDue then s.completeStop n else s

/-- The lane's record at the opening of the position that follows. -/
def Lane.openNext (l : Lane) : Lane := { l with position := l.position + 1, half := .opening }

/-- The slot start of the slot s ≥ 1 that the next drive edge opens (R48, R95). -/
def State.slotStartEvent (s : State) (n : LaneId) : State :=
  let l := s.lane n
  if l.slotStartDue then (s.setLane n l.openNext).slotStart n ((l.position + 1) / l.cfg.width) else s

/-- The append claim of a slot end (R102). -/
def State.receiveHalf (s : State) (n : LaneId) (target : RxTarget) (c : Cell) : State :=
  match target with
  | .ignore => s
  | .ring r => (s.appendClaim r c (.lane n)).1

/-- The slot registers after a slot end: emptied (R94, R102). The pin keeps the last bit until the close of its
position (R100, R111; log 14). -/
def Lane.unloadSlot (l : Lane) : Lane :=
  { l with txCell := .quiet, txBits := 0, rxCell := 0, rxBits := 0, rxTarget := .ignore }

/-- The slot end (R102). -/
def State.slotEnd (s : State) (n : LaneId) : State :=
  let l := s.lane n
  if l.framing && l.slotEndDue then
    let s1 := s.receiveHalf n l.rxTarget l.rxCell
    s1.setLane n (s1.lane n).unloadSlot
  else s

/-! ## Edges of the bit clock (R57, R58, R101, R111) -/

/-- A drive edge of a RUNNING or STOPPING lane. A frame start, slot start or end of frame that the edge opens is
taken first, as is what the sampling edge before it owes (log 4). The end of a frame of a follower with SYNC_EARLY
off leaves it between frames (R51), the transmit pin held until the frame start (R97, R111; DEDUCED, log 28). -/
def Lane.driveRunning (l : Lane) : Lane :=
  match l.half with
  | .opening => l.drive
  | .driven => l
  | .sampled =>
    if l.owes || l.slotStartDue || l.frameStartDue || l.endOfFrameDue then l
    else if l.position + 1 < l.cfg.frameLen then { l with position := l.position + 1 }.drive
    else { l with position := 0, between := true }.drive

/-- An edge in ARMING or HUNT restarts the clock watch (R58). -/
def Lane.driveEdge (l : Lane) : Lane :=
  match l.state with
  | .off => l
  | .arming => if l.owes then l else { l with watchRunning := true }
  | .hunt => if l.owes then l else { l with watchRunning := true }
  | .running => l.driveRunning
  | .stopping => l.driveRunning

/-- What a follower finds at its sync pin at a sampling edge (R57): an arrival is a high level after a low one. -/
def Lane.sampleSync (l : Lane) (sync : Bool) : Lane :=
  { l with arrivalDue := sync && !l.syncSample, syncSample := sync, watchRunning := true }

/-- The sampling edge is a check point (R61). -/
def Lane.isCheckPoint (l : Lane) : Bool :=
  l.between || (l.cfg.syncEarly && decide (l.position + 1 = l.cfg.frameLen))

/-- The receive pin at a sampling edge: placed in a slot, discarded in the gap (R49, R101). -/
def Lane.sampleRx (l : Lane) (rx : Bool) : Lane :=
  let l1 := { l with rxSample := rx, half := .sampled }
  if l.inSlot then l1.placeBit rx else l1

/-- A sampling edge of a RUNNING or STOPPING lane. -/
def Lane.sampleRunning (l : Lane) (rx sync : Bool) : Lane :=
  match l.half with
  | .driven =>
    match l.cfg.role with
    | .master => { l.sampleRx rx with bclkPin := l.cfg.sampleLevel }
    | .follower => { (l.sampleRx rx).sampleSync sync with checkDue := l.isCheckPoint }
  | .opening => l
  | .sampled => l

/-- A sampling edge in ARMING or HUNT: LastSync counts it (R57, R59). -/
def Lane.sampleHunting (l : Lane) (rx sync : Bool) : Lane :=
  if l.owes then l
  else { l.sampleSync sync with rxSample := rx, lastSync := l.lastSync.map (· + 1) }

def Lane.samplingEdge (l : Lane) (rx sync : Bool) : Lane :=
  match l.state with
  | .off => l
  | .arming => l.sampleHunting rx sync
  | .hunt => l.sampleHunting rx sync
  | .running => l.sampleRunning rx sync
  | .stopping => l.sampleRunning rx sync

/-! ## Meanings -/

def execSyncArrival (n : LaneId) (s : State) : Outcome := .next (s.syncArrival n)
def execSyncCheckPoint (n : LaneId) (s : State) : Outcome := .next (s.syncCheckPoint n)
def execFrameStart (n : LaneId) (s : State) : Outcome := .next (s.frameStartEvent n)
def execSlotStart (n : LaneId) (s : State) : Outcome := .next (s.slotStartEvent n)
def execSlotEnd (n : LaneId) (s : State) : Outcome := .next (s.slotEnd n)
def execEndOfFrame (n : LaneId) (s : State) : Outcome := .next (s.endOfFrame n)
def execClockWatchExpiry (n : LaneId) (s : State) : Outcome := .next (s.watchExpiry n)
def execDriveEdge (n : LaneId) (s : State) : Outcome := .next (s.setLane n (s.lane n).driveEdge)
def execSamplingEdge (n : LaneId) (rx sync : Bool) (s : State) : Outcome :=
  .next (s.setLane n ((s.lane n).samplingEdge rx sync))

end Sys2Proof.Machine
end

