-- ==== Sys2Proof/Machine/Dispatch.lean ====
section
/-! DEFINITION. One arm for each command, in the order of spec/opcode_table.json. -/

namespace Sys2Proof.Machine

def exec (i : Instr) (s : State) : Host.Outcome State Fault Refusal :=
  match i with
  | .ringOpen => Sys2Proof.Machine.execRingOpen s
  | .ringClose => Sys2Proof.Machine.execRingClose s
  | .ringFlush => Sys2Proof.Machine.execRingFlush s
  | .ringMarks => Sys2Proof.Machine.execRingMarks s
  | .ringPolicy => Sys2Proof.Machine.execRingPolicy s
  | .ringFill => Sys2Proof.Machine.execRingFill s
  | .ringStatus => Sys2Proof.Machine.execRingStatus s
  | .ringStats => Sys2Proof.Machine.execRingStats s
  | .ringPeek => Sys2Proof.Machine.execRingPeek s
  | .attach => Sys2Proof.Machine.execAttach s
  | .detach => Sys2Proof.Machine.execDetach s
  | .laneSet => Sys2Proof.Machine.execLaneSet s
  | .laneStart => Sys2Proof.Machine.execLaneStart s
  | .laneStop => Sys2Proof.Machine.execLaneStop s
  | .laneAbort => Sys2Proof.Machine.execLaneAbort s
  | .mapWrite => Sys2Proof.Machine.execMapWrite s
  | .mapConst => Sys2Proof.Machine.execMapConst s
  | .mapClear => Sys2Proof.Machine.execMapClear s
  | .mapCopy => Sys2Proof.Machine.execMapCopy s
  | .mapRead => Sys2Proof.Machine.execMapRead s
  | .mapSwap => Sys2Proof.Machine.execMapSwap s
  | .mapCancel => Sys2Proof.Machine.execMapCancel s
  | .dmaSet => Sys2Proof.Machine.execDmaSet s
  | .dmaGo => Sys2Proof.Machine.execDmaGo s
  | .dmaHalt => Sys2Proof.Machine.execDmaHalt s
  | .noticeMask => Sys2Proof.Machine.execNoticeMask s
  | .softReset => Sys2Proof.Machine.execSoftReset s
  | .badCode code => Sys2Proof.Machine.execBadCode code s
  | .prDataLoRead => Sys2Proof.Machine.execPrDataLoRead s
  | .pwDataHiWrite value => Sys2Proof.Machine.execPwDataHiWrite value s
  | .pwDataLoWrite value => Sys2Proof.Machine.execPwDataLoWrite value s
  | .prFlagsWrite value => Sys2Proof.Machine.execPrFlagsWrite value s
  | .pwFlagsWrite value => Sys2Proof.Machine.execPwFlagsWrite value s
  | .dnStatusWrite ch value => Sys2Proof.Machine.execDnStatusWrite ch value s
  | .dnDataLoRead ch => Sys2Proof.Machine.execDnDataLoRead ch s
  | .dnDataLoWrite ch value => Sys2Proof.Machine.execDnDataLoWrite ch value s
  | .dnDataHiWrite ch value => Sys2Proof.Machine.execDnDataHiWrite ch value s
  | .acknowledgedStrobe dak0 dak1 write => Sys2Proof.Machine.execAcknowledgedStrobe dak0 dak1 write s
  | .noticePop value => Sys2Proof.Machine.execNoticePop value s
  | .registerWrite address value => Sys2Proof.Machine.execRegisterWrite address value s
  | .reset met => Sys2Proof.Machine.execReset s met
  | .resetRelease => Sys2Proof.Machine.execResetRelease s
  | .startupEnd => Sys2Proof.Machine.execStartupEnd s
  | .syncArrival lane => Sys2Proof.Machine.execSyncArrival lane s
  | .syncCheckPoint lane => Sys2Proof.Machine.execSyncCheckPoint lane s
  | .frameStart lane => Sys2Proof.Machine.execFrameStart lane s
  | .slotStart lane => Sys2Proof.Machine.execSlotStart lane s
  | .slotEnd lane => Sys2Proof.Machine.execSlotEnd lane s
  | .endOfFrame lane => Sys2Proof.Machine.execEndOfFrame lane s
  | .clockWatchExpiry lane => Sys2Proof.Machine.execClockWatchExpiry lane s
  | .drqReassert ch => Sys2Proof.Machine.execDrqReassert ch s
  | .driveEdge lane => Sys2Proof.Machine.execDriveEdge lane s
  | .samplingEdge lane rx sync => Sys2Proof.Machine.execSamplingEdge lane rx sync s

end Sys2Proof.Machine
end

