-- ==== Sys2Proof/Safety.lean ====
section
/-! DEFINITION. What holds of the part in every state that a run from reset reaches: the invariants that the
statements name. The part never stops, so a safe run is one in which these hold. -/

namespace Sys2Proof.Machine

/-! ## What statements read of a state -/

/-- The part takes register accesses and its window is READY (R149, R170). -/
abbrev State.Accepts (s : State) : Prop := s.resetLow = false ∧ s.win.ready = true

/-- The code that a window command other than SOFT_RESET writes to `Cmd` (Table 8-3). -/
def windowCode : Instr → Option Word
  | .ringOpen => some 0x10
  | .ringClose => some 0x11
  | .ringFlush => some 0x12
  | .ringMarks => some 0x13
  | .ringPolicy => some 0x14
  | .ringFill => some 0x15
  | .ringStatus => some 0x16
  | .ringStats => some 0x17
  | .ringPeek => some 0x18
  | .attach => some 0x20
  | .detach => some 0x21
  | .laneSet => some 0x30
  | .laneStart => some 0x31
  | .laneStop => some 0x32
  | .laneAbort => some 0x33
  | .mapWrite => some 0x40
  | .mapConst => some 0x41
  | .mapClear => some 0x42
  | .mapCopy => some 0x43
  | .mapRead => some 0x44
  | .mapSwap => some 0x45
  | .mapCancel => some 0x46
  | .dmaSet => some 0x50
  | .dmaGo => some 0x51
  | .dmaHalt => some 0x52
  | .noticeMask => some 0x60
  | .badCode code => some code
  | _ => none

/-- The window registers after a command arrival (R150, R151). -/
def Window.answered (w : Window) (code : Word) (a : Answer) : Window :=
  { w with cmd := code, result := a.code, rdata0 := a.data0, rdata1 := a.data1 }

/-- The state after a command that is refused or changes nothing: only the window registers take values. -/
def State.onlyAnswered (s : State) (code : Word) (a : Answer) : State := { s with win := s.win.answered code a }

/-- The cells that a ring holds, from the Head on (R3). -/
def State.cells (s : State) (r : RingId) : List Cell := (List.range (s.ring r).level).map (s.peekCell r)

/-- `t` and `s` agree on every ring but `r`; and so for lanes, slot maps and channels. -/
def State.SameRingsBut (s t : State) (r : RingId) : Prop := ∀ q, q ≠ r → t.ring q = s.ring q
def State.SameLanesBut (s t : State) (n : LaneId) : Prop := ∀ m, m ≠ n → t.lane m = s.lane m
def State.SameMapsBut (s t : State) (n : LaneId) : Prop := ∀ m, m ≠ n → t.smap m = s.smap m
def State.SameChansBut (s t : State) (ch : ChanId) : Prop := ∀ d, d ≠ ch → t.chan d = s.chan d

/-- `t` differs from `s` in the rings' seats alone, if in the rings at all (R38 to R40). -/
def Ring.SameButSeats (g h : Ring) : Prop := h = { g with producer := h.producer, consumer := h.consumer }

/-! ## Buffer memory and notices -/

/-- Buffer memory has its canonical form: addresses rising, inside the memory, no entry 0 (log 8). -/
def State.MemoryOk (s : State) : Prop := Memory.wf s.mem = true

/-- The queue never holds more than 32 records (R162), and Lost is above 0 only while it is full (R166). -/
def NoticeUnit.Ok (u : NoticeUnit) : Prop :=
  u.queue.length ≤ Config.queueDepth ∧ (u.lost ≠ 0 → u.queue.length = Config.queueDepth)

/-- NOTICE_LOST and STARTUP_DONE stay enabled, and the bits that name no kind are held as 0 (R163). -/
def NoticeUnit.MaskOk (u : NoticeUnit) : Prop := u.mask &&& 0xFFFF0001#32 = 0x00030000#32

/-! ## Start-up -/

/-- While the window is in STARTUP every block is at its reset values: no command reaches an owner, no access sets
a flag, no notice is posted (R116, R129, R160, R177). -/
def State.QuietInStartup (s : State) : Prop :=
  (s.resetLow = true → s.win.ready = false) ∧
  (s.win.ready = false →
    (∀ r, s.ring r = .reset) ∧ (∀ n, s.lane n = .reset) ∧ (∀ n, s.smap n = .reset) ∧
    (∀ ch, s.chan ch = .reset) ∧ s.pr = .reset ∧ s.pw = .reset ∧ s.notices = .reset)

/-- The clear address runs from 0 to 4096, and in start-up it follows the periods: word 0 in period 8 and each
later word in the period after the one before (R176). -/
def State.ClearingOk (s : State) : Prop :=
  s.clearAddr ≤ Config.memWords ∧
  (s.win.ready = false →
    s.clearAddr = s.period - Config.firstClearPeriod ∧ s.clearAddr < Config.memWords)

/-! ## Rings -/

/-- A record as R2 to R4 have it: a CLOSED ring at its reset values; an OPEN ring with a region inside the memory,
its capacity, indices and level in range, Tail at (Head + Level) mod C, marks in order, the Zone of its level, and
Fill and LastOut of its width. -/
def Ring.Ok (g : Ring) : Prop :=
  (g.state = .closed → g = .reset) ∧
  (g.state = .opened →
    (g.width = 8 ∨ g.width = 16 ∨ g.width = 32) ∧ 2 ≤ g.length ∧ g.base + g.length ≤ Config.memWords ∧
    g.cap = g.length * 32 / g.width ∧ g.head < g.cap ∧ g.tail = (g.head + g.level) % g.cap ∧
    g.level ≤ g.cap ∧ g.lowMark < g.highMark ∧ g.highMark ≤ g.cap ∧ g.zone = g.zoneNow ∧
    g.fill.toNat < 2 ^ g.width ∧ g.lastOut.toNat < 2 ^ g.width)

def State.RingsOk (s : State) : Prop := ∀ r, (s.ring r).Ok

/-- No buffer-memory word belongs to two OPEN rings (R5). -/
def State.RegionsDisjoint (s : State) : Prop :=
  ∀ r q, r ≠ q → (s.ring r).state = .opened → (s.ring q).state = .opened →
    (s.ring r).base + (s.ring r).length ≤ (s.ring q).base ∨
    (s.ring q).base + (s.ring q).length ≤ (s.ring r).base

/-! ## Seats -/

/-- An agent's record says yes exactly when the seat it names is HELD by that agent (R28), and PR holds consumer
seats only, PW producer seats only (R26). -/
def State.AgentsSeated (s : State) : Prop :=
  ∀ a r side, ((s.ring r).seat side = .held (.agent a) ↔ s.attachOf a = some ⟨r, side⟩) ∧
    (s.attachOf a = some ⟨r, side⟩ → a.fits side = true)

/-- A lane holds a ring's seat exactly when a live entry 0..N−1 names the ring on that side (R34). -/
def State.LanesSeated (s : State) : Prop :=
  ∀ n r side, (s.ring r).seat side = .held (.lane n) ↔
    bankNames (s.smap n).liveBank (s.lane n).cfg.slots side r = true

/-- A seat is RESERVED for a lane only while the lane, not in OFF, has a swap pending whose edit bank names it, and
every seat that bank names is then RESERVED for the lane or HELD by it (R36, R46). -/
def State.ReservationsOk (s : State) : Prop :=
  ∀ n,
    ((s.smap n).swapPending = true → (s.lane n).state ≠ .off) ∧
    (∀ r side, (s.ring r).seat side = .reserved n →
      (s.smap n).swapPending = true ∧ bankNames (s.smap n).editBank (s.lane n).cfg.slots side r = true) ∧
    ((s.smap n).swapPending = true → ∀ r side,
      bankNames (s.smap n).editBank (s.lane n).cfg.slots side r = true →
        (s.ring r).seat side = .reserved n ∨ (s.ring r).seat side = .held (.lane n))

/-- A ring whose seat a lane holds or has reserved is OPEN and of the lane's width (R75). -/
def State.LaneRingsFit (s : State) : Prop :=
  ∀ n r side, (s.ring r).seat side = .held (.lane n) ∨ (s.ring r).seat side = .reserved n →
    (s.ring r).state = .opened ∧ (s.ring r).width = (s.lane n).cfg.width

/-- The ring that a slot in flight receives into is one whose producer seat its lane holds (R34, R95, R102). -/
def State.TargetsSeated (s : State) : Prop :=
  ∀ n r, (s.lane n).rxTarget = .ring r → (s.ring r).producer = .held (.lane n)

/-! ## DMA channels -/

/-- A channel's record as R130, R135, R136 and R141 have it. -/
def Channel.Ok (c : Channel) : Prop :=
  1 ≤ c.quantum ∧ c.quantum ≤ 16 ∧ c.grant ≤ c.quantum ∧ c.count ≠ 0 ∧
  (c.state ≠ .idle → c.attach ≠ none) ∧
  (0 < c.grant → c.state = .active) ∧
  (c.mode = .count → c.state = .active → c.grant ≤ c.tally.toNat ∧ c.tally ≠ 0) ∧
  (c.gap = true → 0 < c.grant)

def State.ChannelsOk (s : State) : Prop := ∀ ch, (s.chan ch).Ok

/-- A channel with a grant of G holds a seat of an OPEN ring that has G cells (READ) or room for G cells (WRITE)
(R137). -/
def State.GrantsBacked (s : State) : Prop :=
  ∀ ch a, (s.chan ch).attach = some a → 0 < (s.chan ch).grant →
    (s.ring a.ring).state = .opened ∧ (s.chan ch).grant ≤ (s.ring a.ring).available a.side

/-! ## Lanes -/

/-- Every parameter holds one of its values (Table 3-2). -/
def LaneConfig.Ok (c : LaneConfig) : Prop :=
  1 ≤ c.slots ∧ c.slots ≤ 32 ∧ (c.width = 8 ∨ c.width = 16 ∨ c.width = 32) ∧ c.gap ≤ 63 ∧
  1 ≤ c.divisor ∧ c.divisor ≤ 4096 ∧ 1 ≤ c.relock ∧ c.relock ≤ 8 ∧ c.flywheel ≤ 7 ∧
  1 ≤ c.watch ∧ c.watch ≤ 255

/-- The transmit register is QUIET with no bit driven, or holds a cell of which `n` bits have been driven (R112;
log 14). -/
def Lane.TxDriven (l : Lane) (n : Nat) : Prop :=
  match l.txCell with
  | .quiet => l.txBits = 0
  | .cell _ => l.txBits = n

/-- The slot registers are empty (R94). -/
def Lane.Unloaded (l : Lane) : Prop :=
  l.txCell = .quiet ∧ l.txBits = 0 ∧ l.rxCell = 0 ∧ l.rxBits = 0 ∧ l.rxTarget = .ignore

/-- The transmit pin is at high impedance, unless it is held between two frames that no gap parts (R97, R111). -/
def Lane.PinReleased (l : Lane) : Prop := l.txPin = .hiZ ∨ (l.between = true ∧ l.cfg.gap = 0)

/-- Where a frame is in flight, Position is in the frame and the slot registers stand where Position and the half
bit clock say (R47, R48, R101, R112). -/
def Lane.InStep (l : Lane) : Prop :=
  l.position < l.cfg.frameLen ∧
  match l.half with
  | .opening =>
    l.between = false ∧ l.position < l.cfg.slotsLen ∧ l.position % l.cfg.width = 0 ∧ l.txBits = 0 ∧ l.rxBits = 0
  | .driven =>
    if l.inSlot then l.rxBits = l.position % l.cfg.width ∧ l.TxDriven (l.position % l.cfg.width + 1)
    else l.Unloaded ∧ l.PinReleased
  | .sampled =>
    if l.inSlot && l.lockNotice.isNone then
      (l.rxBits = l.position % l.cfg.width + 1 ∧ l.TxDriven (l.position % l.cfg.width + 1)) ∨
        ((l.position + 1) % l.cfg.width = 0 ∧ l.Unloaded)
    else l.Unloaded ∧ l.PinReleased

/-- The slot registers and the transmit pin at their reset values (R49, R94). -/
def Lane.Silent (l : Lane) : Prop := l.Unloaded ∧ l.txPin = .hiZ

/-- A lane's record as R44 to R68 and R94 have it. -/
def Lane.Ok (l : Lane) : Prop :=
  l.cfg.Ok ∧ l.goodSyncs ≤ l.cfg.relock ∧ l.missedRun ≤ l.cfg.flywheel ∧
  (l.cfg.role = .master → l.state ≠ .arming ∧ l.state ≠ .hunt) ∧
  (l.cfg.role = .follower → l.bclkPin = .hiZ ∧ l.fsyncPin = .hiZ) ∧
  (l.state = .off → l.bclkPin = .hiZ ∧ l.fsyncPin = .hiZ ∧ l.goodSyncs = 0 ∧ l.missedRun = 0) ∧
  (l.state = .arming ∨ l.state = .hunt → l.goodSyncs < l.cfg.relock) ∧
  (l.framing = false → l.Silent) ∧
  (l.framing = true → l.InStep) ∧
  (l.checkDue = true → l.framing = true ∧ l.half = .sampled) ∧
  (l.between = true → l.framing = true ∧ l.position = 0 ∧ l.cfg.startsAtDrive = false ∧
    (l.half = .driven ∨ l.checkDue = true)) ∧
  (l.lockNotice ≠ none → l.framing = true ∧ l.half = .sampled ∧ l.cfg.syncEarly = true ∧
    l.position + 1 = l.cfg.frameLen)

def State.LanesOk (s : State) : Prop := ∀ n, (s.lane n).Ok

/-! ## Ports -/

/-- Latch is 0 while PR is unattached or its ring is narrower than 32 bits, and so is Staging of PW (R116, R119,
R122, R125). -/
def State.PortsOk (s : State) : Prop :=
  (s.pr.latch ≠ 0 → ∃ a, s.pr.attach = some a ∧ (s.ring a.ring).width = 32) ∧
  (s.pw.staging ≠ 0 → ∃ a, s.pw.attach = some a ∧ (s.ring a.ring).width = 32)

/-! ## All of it -/

/-- The invariants together. -/
structure State.Inv (s : State) : Prop where
  memory : s.MemoryOk
  notices : s.notices.Ok
  mask : s.notices.MaskOk
  startup : s.QuietInStartup
  clearing : s.ClearingOk
  rings : s.RingsOk
  regions : s.RegionsDisjoint
  agents : s.AgentsSeated
  laneSeats : s.LanesSeated
  reservations : s.ReservationsOk
  laneRings : s.LaneRingsFit
  targets : s.TargetsSeated
  channels : s.ChannelsOk
  grants : s.GrantsBacked
  lanes : s.LanesOk
  ports : s.PortsOk

end Sys2Proof.Machine
end

