-- ==== Sys2Proof/Certificates/Slice0/Obligations.lean ====
section
/-! DEFINITION. The statements for the provers. -/

open Sys2Proof Sys2Proof.Machine

/-! ## The queue, resets and start-up -/

/-- A step takes the command at the front of the queue and runs it on the state with the queue's rest. -/
def Obligations.StepRunsTheFrontCommand : Prop :=
  ∀ (c : Instr) (rest : List Instr) (s : State),
    step { s with pending := c :: rest } = exec c { s with pending := rest }

/-- The model's choice (log 2): a step on an empty queue is one reference-clock period of start-up, and changes
nothing when start-up does not run. What the period does is R176's. -/
def Obligations.EmptyQueueStepIsOnePeriod : Prop :=
  ∀ s : State, s.pending = [] →
    (s.resetLow = true ∨ s.win.ready = true → step s = .next s) ∧
    (s.resetLow = false → s.win.ready = false →
      (s.period < 8 → step s = .next { s with period := s.period + 1 }) ∧
      (8 ≤ s.period → s.clearAddr < 4095 → s.MemoryOk →
        ∃ t, step s = .next t ∧
          t = { s with mem := t.mem, clearAddr := s.clearAddr + 1, period := s.period + 1 } ∧
          ∀ w, Memory.readWord t.mem w = if w = s.clearAddr then 0 else Memory.readWord s.mem w) ∧
      (8 ≤ s.period → 4095 ≤ s.clearAddr →
        step s = .next { s with
          period := s.period + 1, clearAddr := 4096, mem := [], win := { s.win with ready := true },
          notices := s.notices.post ⟨.startupDone, .part, none, 0⟩ }))

/-- Left alone from the start of start-up on (log 2), the part is in start-up through period 4102, and the period
numbered 4103 ends it: word 0 is written in period 8 and each later word in the period after. -/
def Obligations.StartupEndsInPeriod4103 : Prop :=
  ∀ s : State, s.resetLow = false → s.win.ready = false → s.pending = [] → s.clearAddr = 0 → s.period = 0 →
    (∀ k, k ≤ 4103 → ∃ t, Sys2Proof.core.run k s = .next t ∧ t.win.ready = false ∧ t.clearAddr = k - 8) ∧
    ∃ t, Sys2Proof.core.run 4104 s = .next t ∧ t.win.ready = true ∧ t.clearAddr = 4096 ∧
      ∀ w, Memory.readWord t.mem w = 0

/-- RESET_N driven low, and SOFT_RESET, give every block the values of `State.reset`, RESET_N staying as it is driven;
outside the blocks stand the queue, the data pins, the numbering of free values (logs 7, 12, 13) and the words of
buffer memory, which start-up clears (log 8). A write of `Cmd` that meets the pin, the reset taken first, then answers
NOT_READY; a SOFT_RESET that does leaves the reset values. That such a write is an operand of RESET, and that with
RESET_N low already none meets it, is the model's (log 30). Then those values, written out: rings, lanes, slot maps,
agents, ports, channels, notices, window, and what the registers show. -/
def Obligations.ResetsGiveEveryBlockItsResetValues : Prop :=
  (∀ s : State,
     let pinReset := { State.reset with
       pending := s.pending, freeCount := s.freeCount, readData := s.readData, mem := s.mem, resetLow := true }
     exec (.reset none) s = .next pinReset ∧
     (∀ code : Word, s.resetLow = false → code ≠ 0x70 →
       exec (.reset (some code)) s = .next (pinReset.onlyAnswered code (.plain .notReady))) ∧
     exec (.reset (some 0x70)) s = .next pinReset ∧
     (∀ code : Word, s.resetLow = true → exec (.reset (some code)) s = .next pinReset) ∧
     (s.resetLow = false →
       exec .softReset s = .next { State.reset with
         pending := s.pending, freeCount := s.freeCount, readData := s.readData, mem := s.mem, resetLow := false }) ∧
     (s.resetLow = true → exec .softReset s = .next s)) ∧
  ((∀ r : RingId, State.reset.ring r =
     { state := .closed, base := 0, length := 0, width := 0, cap := 0, head := 0, tail := 0, level := 0,
       lowMark := 0, highMark := 0, zone := .low, fill := 0, emptyPolicy := .fill, fullPolicy := .dropNew,
       prime := false, primed := false, lastOut := 0, underrunEpisode := false, overrunEpisode := false,
       underrunCount := 0, overrunCount := 0, producer := .free, consumer := .free }) ∧
   (∀ n : LaneId, (State.reset.lane n).cfg =
       { role := .follower, slots := 8, width := 16, gap := 0, syncForm := .pulse, syncEarly := false,
         bitOrder := .msbFirst, clockEdge := .driveRise, divisor := 8, relock := 2, flywheel := 1, watch := 16 } ∧
     (State.reset.lane n).state = .off ∧ (State.reset.lane n).frameCount = 0 ∧ (State.reset.lane n).position = 0 ∧
     (State.reset.lane n).goodSyncs = 0 ∧ (State.reset.lane n).lastSync = none ∧
     (State.reset.lane n).syncSample = true ∧ (State.reset.lane n).missedRun = 0 ∧
     (State.reset.lane n).lastCause = .none ∧ (State.reset.lane n).watchRunning = false ∧
     (State.reset.lane n).txCell = .quiet ∧ (State.reset.lane n).txBits = 0 ∧ (State.reset.lane n).rxCell = 0 ∧
     (State.reset.lane n).rxBits = 0 ∧ (State.reset.lane n).rxTarget = .ignore ∧
     (State.reset.lane n).txPin = .hiZ ∧ (State.reset.lane n).bclkPin = .hiZ ∧
     (State.reset.lane n).fsyncPin = .hiZ) ∧
   (∀ n : LaneId, (State.reset.smap n).live = .x ∧ (State.reset.smap n).swapPending = false ∧
     ∀ i : Fin 32,
       (State.reset.smap n).bankX[i] =
         { txKind := .quiet, txRing := 0, const := 0, rxKind := .ignore, rxRing := 0, mark := false } ∧
       (State.reset.smap n).bankY[i] =
         { txKind := .quiet, txRing := 0, const := 0, rxKind := .ignore, rxRing := 0, mark := false }) ∧
   (∀ a : Agent, State.reset.attachOf a = none) ∧
   (State.reset.pr.record.attached = false ∧ State.reset.pr.record.ring = 0 ∧ State.reset.pr.latch = 0 ∧
     State.reset.pr.underflow = false ∧ State.reset.pr.stray = false) ∧
   (State.reset.pw.record.attached = false ∧ State.reset.pw.record.ring = 0 ∧ State.reset.pw.staging = 0 ∧
     State.reset.pw.overflow = false ∧ State.reset.pw.stray = false) ∧
   (∀ ch : ChanId, (State.reset.chan ch).record.attached = false ∧ (State.reset.chan ch).record.ring = 0 ∧
     (State.reset.chan ch).mode = .count ∧ (State.reset.chan ch).quantum = 1 ∧ (State.reset.chan ch).count = 1 ∧
     (State.reset.chan ch).form = .addressed ∧ (State.reset.chan ch).state = .idle ∧
     (State.reset.chan ch).grant = 0 ∧ (State.reset.chan ch).tally = 0 ∧ (State.reset.chan ch).latch = 0 ∧
     (State.reset.chan ch).staging = 0 ∧ (State.reset.chan ch).phase = .first ∧
     (State.reset.chan ch).stray = false ∧ (State.reset.chan ch).drqPin = false) ∧
   (State.reset.notices.queue = [] ∧ State.reset.notices.lost = 0 ∧ State.reset.notices.interrupt = false ∧
     ∀ k : NoticeKind, State.reset.notices.mask.getLsbD k.code = true) ∧
   State.reset.win.result = .none ∧ State.reset.win.ready = false ∧ State.reset.clearAddr = 0 ∧
   ∀ a : RegAddr, State.reset.readRegister a = if a = 0x08 then 0x0080 else 0)

/-- Start-up begins with clear address 0 when RESET_N goes high, and ends as one event, which stands for what is left
of the clearing (log 6): clear address 4096, every word 0, the window READY, STARTUP_DONE posted; the queue of notices
then holds that record alone, and the interrupt line is asserted. -/
def Obligations.StartupBeginsAndEnds : Prop :=
  (∀ s : State, s.resetLow = true →
    exec .resetRelease s = .next { s with resetLow := false, clearAddr := 0, period := 0 }) ∧
  ∀ s : State, s.resetLow = false → s.win.ready = false →
    ∃ t, exec .startupEnd s = .next t ∧
      t = { s with clearAddr := 4096, mem := t.mem, win := { s.win with ready := true },
                   notices := s.notices.post ⟨.startupDone, .part, none, 0⟩ } ∧
      (∀ w, Memory.readWord t.mem w = 0) ∧
      (s.notices = .reset →
        t.notices.queue = [⟨.startupDone, .part, none, 0⟩] ∧ t.notices.interrupt = true ∧
        t.globalStatusWord = 1)

/-- In start-up every code but SOFT_RESET's is answered NOT_READY, whatever the code and the arguments; in READY a
code that names no command is answered BAD_CODE. Only the window registers take values. -/
def Obligations.WindowRefusesByStateAndCode : Prop :=
  (∀ (s : State) (c : Instr) (code : Word), windowCode c = some code → c.wellFormed = true →
     s.resetLow = false → s.win.ready = false → exec c s = .next (s.onlyAnswered code (.plain .notReady))) ∧
  (∀ (s : State) (code : Word), s.Accepts → (Instr.badCode code).wellFormed = true →
     exec (.badCode code) s = .next (s.onlyAnswered code (.plain .badCode)))

/-- A command answered neither DONE nor ACCEPTED changes nothing but the window registers; result data other than
0 stands only with DONE and with a refusal of MAP_SWAP. -/
def Obligations.RefusedCommandsChangeNoState : Prop :=
  ∀ (s t : State) (c : Instr) (code : Word), windowCode c = some code → c.wellFormed = true → s.Accepts →
    exec c s = .next t →
    t.win = s.win.answered code ⟨t.win.result, t.win.rdata0, t.win.rdata1⟩ ∧
    (t.win.result ≠ .done → t.win.result ≠ .accepted → t = { s with win := t.win }) ∧
    (t.win.result ≠ .done → c ≠ .mapSwap → t.win.rdata0 = 0 ∧ t.win.rdata1 = 0)

/-- A write of an address with no behaviour of its own: `Arg0` to `Arg3` store it, in STARTUP and in READY, and
any other address ignores it. What a read without a side effect returns at every address, field by field, with the
codes of the enumerations; such a read is no command of the table and changes nothing (log 20). -/
def Obligations.PlainRegisterWritesStoreOrAreIgnored : Prop :=
  (∀ (s : State) (address : RegAddr) (v : Word), s.resetLow = false →
     (Instr.registerWrite address v).wellFormed = true →
     exec (.registerWrite address v) s = .next
       (if address = 1 then { s with win := { s.win with arg0 := v } }
        else if address = 2 then { s with win := { s.win with arg1 := v } }
        else if address = 3 then { s with win := { s.win with arg2 := v } }
        else if address = 4 then { s with win := { s.win with arg3 := v } }
        else s)) ∧
  (∀ s : State,
     s.readRegister 0x00 = s.win.cmd ∧ s.readRegister 0x01 = s.win.arg0 ∧ s.readRegister 0x02 = s.win.arg1 ∧
     s.readRegister 0x03 = s.win.arg2 ∧ s.readRegister 0x04 = s.win.arg3 ∧
     s.readRegister 0x05 = s.win.result.code ∧ s.readRegister 0x06 = s.win.rdata0 ∧
     s.readRegister 0x07 = s.win.rdata1 ∧
     (s.notices.queue.length ≤ 32 →
       (s.readRegister 0x08).toNat =
         s.notices.queue.length + 128 * (!s.win.ready).toNat + 256 * s.notices.lost.toNat) ∧
     (s.notices.queue = [] →
       s.readRegister 0x10 = 0 ∧ s.readRegister 0x11 = 0 ∧ s.readRegister 0x12 = 0) ∧
     (∀ x rest, s.notices.queue = x :: rest →
       (s.readRegister 0x10).toNat = x.kind.code + 256 * x.source.code + 32768 * x.frame.isSome.toNat ∧
       s.readRegister 0x11 = x.frame.getD 0 ∧ (s.readRegister 0x12).toNat = x.detail.toNat) ∧
     s.readRegister 0x21 = s.pr.latch ∧
     (s.pr.attach = none → s.readRegister 0x22 = 0) ∧
     (∀ a, s.pr.attach = some a → (s.ring a.ring).level < 65536 →
       (s.readRegister 0x22).toNat = (s.ring a.ring).level) ∧
     (s.readRegister 0x23).toNat = s.pr.underflow.toNat + 2 * s.pr.stray.toNat ∧
     s.readRegister 0x25 = s.pw.staging ∧
     (s.pw.attach = none → s.readRegister 0x26 = 0) ∧
     (∀ a, s.pw.attach = some a → (s.ring a.ring).cap < 65536 →
       (s.readRegister 0x26).toNat = (s.ring a.ring).cap - (s.ring a.ring).level) ∧
     (s.readRegister 0x27).toNat = s.pw.overflow.toNat + 2 * s.pw.stray.toNat) ∧
  (∀ (s : State) (ch : ChanId),
     let c := s.chan ch
     let at_ (k : Nat) : Word := s.readRegister (BitVec.ofNat 7 (0x30 + 4 * ch.val + k))
     (c.form = .acked → at_ 1 = 0) ∧
     (c.form = .addressed → c.attach = none → at_ 1 = c.latch) ∧
     (∀ a, c.form = .addressed → c.attach = some a →
       at_ 1 = if a.side = .producer ∧ (s.ring a.ring).width = 32 then c.staging else c.latch) ∧
     (c.grant ≤ 16 →
       (at_ 2).toNat = c.state.code + 4 * (decide (0 < c.grant)).toNat + 16 * c.grant + 32768 * c.stray.toNat) ∧
     at_ 3 = c.tally) ∧
  (∀ (s : State) (n : LaneId),
     let at_ (k : Nat) : Word := s.readRegister (BitVec.ofNat 7 (0x40 + 2 * n.val + k))
     (at_ 0).toNat = (s.lane n).state.code + 16 * (s.smap n).live.code + 32 * (s.smap n).swapPending.toNat
       + 256 * (s.lane n).lastCause.code ∧
     at_ 1 = (s.lane n).frameCount) ∧
  (∀ (s : State) (a : RegAddr),
     a.toNat ∈ [0x13, 0x24] ∨ (a.toNat ∉ List.range 9 ∧ a.toNat ∉ List.range' 0x10 3 ∧
       a.toNat ∉ List.range' 0x20 8 ∧ a.toNat ∉ List.range' 0x30 8 ∧ a.toNat ∉ List.range' 0x40 8) →
     s.readRegister a = 0) ∧
  ([NoticeKind.laneLocked, .laneRelocked, .laneLost, .laneStopped, .swapDone, .swapCancelled, .slotMark, .ringLow,
     .ringHigh, .ringUnderrun, .ringOverrun, .portFault, .dmaDone, .dmaWrap, .dmaFault, .noticeLost,
     .startupDone].map NoticeKind.code = List.range' 1 17 ∧
   (∀ n : LaneId, (Source.lane n).code = n.val) ∧ Source.pr.code = 4 ∧ Source.pw.code = 5 ∧
   (∀ ch : ChanId, (Source.dma ch).code = 6 + ch.val) ∧ Source.part.code = 8 ∧
   (∀ r : RingId, (Source.ring r).code = 16 + r.val) ∧
   [LaneState.off, .arming, .running, .hunt, .stopping].map LaneState.code = [0, 1, 2, 3, 4] ∧
   [LossCause.none, .misaligned, .missed, .clockLost].map LossCause.code = [0, 1, 2, 3] ∧
   [ChanState.idle, .active, .fault].map ChanState.code = [0, 1, 2] ∧
   [BankName.x, .y].map BankName.code = [0, 1] ∧
   [Result.none, .done, .accepted, .already, .badCode, .badParam, .notReady, .ringState, .overlap, .seatBusy,
     .agentBusy, .notAttached, .empty, .laneState, .swapPending, .badMap, .widthMismatch].map Result.code =
     [0x00, 0x01, 0x02, 0x03, 0x10, 0x11, 0x12, 0x20, 0x21, 0x22, 0x23, 0x24, 0x25, 0x30, 0x31, 0x32, 0x33])

/-- While RESET_N is low a strobe is no access: a window command, SOFT_RESET and a write change nothing, and a read
changes nothing but the data pins, whose word has no defined value (log 9). The part keeps its values until the
release. -/
def Obligations.StrobesInResetAreNoAccess : Prop :=
  ∀ (s : State), s.resetLow = true →
    (∀ c : Instr, (windowCode c).isSome = true → exec c s = .next s) ∧ exec .softReset s = .next s ∧
    (∀ (address : RegAddr) (v : Word) (ch : ChanId) (dak0 dak1 : Bool),
      exec (.registerWrite address v) s = .next s ∧ exec (.noticePop v) s = .next s ∧
      exec (.pwDataLoWrite v) s = .next s ∧ exec (.pwDataHiWrite v) s = .next s ∧
      exec (.prFlagsWrite v) s = .next s ∧ exec (.pwFlagsWrite v) s = .next s ∧
      exec (.dnStatusWrite ch v) s = .next s ∧ exec (.dnDataLoWrite ch v) s = .next s ∧
      exec (.dnDataHiWrite ch v) s = .next s ∧ exec (.acknowledgedStrobe dak0 dak1 (some v)) s = .next s) ∧
    (∀ ch : ChanId, ∃ w,
      exec .prDataLoRead s = .next { s with readData := w, freeCount := s.freeCount + 1 } ∧
      exec (.dnDataLoRead ch) s = .next { s with readData := w, freeCount := s.freeCount + 1 } ∧
      ∀ dak0 dak1, (dak0 || dak1) = true →
        exec (.acknowledgedStrobe dak0 dak1 none) s =
          .next { s with readData := w, freeCount := s.freeCount + 1 })

/-! ## Commands on rings -/

/-- RING_OPEN by its checks in order, and the record of the opened ring. -/
def Obligations.RingOpenChecksAndOpens : Prop :=
  ∀ s : State, s.Accepts → s.RingsOk →
    let base := s.win.arg1.toNat
    let length := s.win.arg2.toNat
    let width := s.win.arg3.toNat
    let inRange := (width = 8 ∨ width = 16 ∨ width = 32) ∧ 2 ≤ length ∧ base + length ≤ 4096
    let shares := ∃ q w, (s.ring q).state = .opened ∧ base ≤ w ∧ w < base + length ∧
      (s.ring q).base ≤ w ∧ w < (s.ring q).base + (s.ring q).length
    (16 ≤ s.win.arg0.toNat ∨ ¬inRange → exec .ringOpen s = .next (s.onlyAnswered 0x10 (.plain .badParam))) ∧
    ∀ r : RingId, s.win.arg0.toNat = r.val → inRange →
      ((s.ring r).state = .opened → exec .ringOpen s = .next (s.onlyAnswered 0x10 (.plain .ringState))) ∧
      ((s.ring r).state = .closed → shares →
        exec .ringOpen s = .next (s.onlyAnswered 0x10 (.plain .overlap))) ∧
      ((s.ring r).state = .closed → ¬shares →
        ∃ t, exec .ringOpen s = .next t ∧
          t = { s with rings := t.rings, win := s.win.answered 0x10 (.plain .done) } ∧ s.SameRingsBut t r ∧
          t.ring r =
            { state := .opened, base := base, length := length, width := width, cap := length * 32 / width,
              head := 0, tail := 0, level := 0, lowMark := 0, highMark := length * 32 / width, zone := .low,
              fill := 0, emptyPolicy := .fill, fullPolicy := .dropNew, prime := false, primed := false,
              lastOut := 0, underrunEpisode := false, overrunEpisode := false, underrunCount := 0,
              overrunCount := 0, producer := .free, consumer := .free })

/-- RING_CLOSE by its checks in order; the record of the closed ring takes the reset values. -/
def Obligations.RingCloseChecksAndCloses : Prop :=
  ∀ s : State, s.Accepts →
    (16 ≤ s.win.arg0.toNat → exec .ringClose s = .next (s.onlyAnswered 0x11 (.plain .badParam))) ∧
    ∀ r : RingId, s.win.arg0.toNat = r.val →
      ((s.ring r).state = .closed → exec .ringClose s = .next (s.onlyAnswered 0x11 (.plain .ringState))) ∧
      ((s.ring r).state = .opened → (s.ring r).producer ≠ .free ∨ (s.ring r).consumer ≠ .free →
        exec .ringClose s = .next (s.onlyAnswered 0x11 (.plain .seatBusy))) ∧
      ((s.ring r).state = .opened → (s.ring r).producer = .free → (s.ring r).consumer = .free →
        ∃ t, exec .ringClose s = .next t ∧
          t = { s with rings := t.rings, win := s.win.answered 0x11 (.plain .done) } ∧ s.SameRingsBut t r ∧
          t.ring r = .reset)

/-- RING_FLUSH is refused while an ACTIVE channel holds a seat of the ring; else it empties the ring, ends its
episodes, clears Primed and takes the Zone to LOW, with RING_LOW where it was not LOW. -/
def Obligations.RingFlushEmptiesTheRing : Prop :=
  ∀ (s : State) (r : RingId), s.Accepts → s.win.arg0.toNat = r.val → (s.ring r).state = .opened →
    let busy := ∃ ch a, (s.chan ch).attach = some a ∧ a.ring = r ∧ (s.chan ch).state = .active
    (busy → exec .ringFlush s = .next (s.onlyAnswered 0x12 (.plain .seatBusy))) ∧
    (¬busy →
      ∃ t, exec .ringFlush s = .next t ∧
        t = { s with rings := t.rings, win := s.win.answered 0x12 (.plain .done),
                     notices := if (s.ring r).zone = .low then s.notices
                       else s.notices.post ⟨.ringLow, .ring r, none, 0⟩ } ∧
        s.SameRingsBut t r ∧
        t.ring r = { s.ring r with head := (s.ring r).tail, level := 0, primed := false, zone := .low,
                                   underrunEpisode := false, overrunEpisode := false } ∧
        t.cells r = [])

/-- RING_MARKS sets the marks where low < high ≤ C, and the Zone is evaluated against the present Level;
RING_POLICY sets the three policy fields, Primed becoming false where Prime goes on; RING_FILL sets Fill to the low
W bits of its value. Nothing else changes. -/
def Obligations.RingSettingsTakeTheirFields : Prop :=
  (∀ (s : State) (r : RingId), s.Accepts → s.win.arg0.toNat = r.val → (s.ring r).state = .opened →
     let low := s.win.arg1.toNat
     let high := s.win.arg2.toNat
     let zone : Zone := if (s.ring r).level ≤ low then .low else if high ≤ (s.ring r).level then .high else .mid
     (¬(low < high ∧ high ≤ (s.ring r).cap) →
       exec .ringMarks s = .next (s.onlyAnswered 0x13 (.plain .badParam))) ∧
     (low < high → high ≤ (s.ring r).cap →
       ∃ t, exec .ringMarks s = .next t ∧
         t = { s with rings := t.rings, win := s.win.answered 0x13 (.plain .done),
                      notices := if zone = (s.ring r).zone then s.notices
                        else match zone with
                          | .low => s.notices.post ⟨.ringLow, .ring r, none, 0⟩
                          | .high => s.notices.post ⟨.ringHigh, .ring r, none, 0⟩
                          | .mid => s.notices } ∧
         s.SameRingsBut t r ∧ t.ring r = { s.ring r with lowMark := low, highMark := high, zone := zone })) ∧
  (∀ (s : State) (r : RingId), s.Accepts → s.win.arg0.toNat = r.val → (s.ring r).state = .opened →
     (1 < s.win.arg1.toNat ∨ 1 < s.win.arg2.toNat ∨ 1 < s.win.arg3.toNat →
       exec .ringPolicy s = .next (s.onlyAnswered 0x14 (.plain .badParam))) ∧
     (s.win.arg1.toNat ≤ 1 → s.win.arg2.toNat ≤ 1 → s.win.arg3.toNat ≤ 1 →
       ∃ t, exec .ringPolicy s = .next t ∧
         t = { s with rings := t.rings, win := s.win.answered 0x14 (.plain .done) } ∧ s.SameRingsBut t r ∧
         t.ring r = { s.ring r with
           emptyPolicy := if s.win.arg1.toNat = 0 then .fill else .repeatLast,
           fullPolicy := if s.win.arg2.toNat = 0 then .dropNew else .dropOldest,
           prime := decide (s.win.arg3.toNat = 1),
           primed := if s.win.arg3.toNat = 1 ∧ (s.ring r).prime = false then false else (s.ring r).primed }) ∧
     ∃ t, exec .ringFill s = .next t ∧
       t = { s with rings := t.rings, win := s.win.answered 0x15 (.plain .done) } ∧ s.SameRingsBut t r ∧
       t.ring r = { s.ring r with
         fill := BitVec.ofNat 32 ((s.win.arg2.toNat * 65536 + s.win.arg1.toNat) % 2 ^ (s.ring r).width) })

/-- The ring commands that need an OPEN ring answer BAD_PARAM for a ring above 15 and RING_STATE for a CLOSED ring;
the map commands answer BAD_PARAM for a lane, slot, kind, bank or part outside its range. -/
def Obligations.RingAndMapCommandsRefuseBadOperands : Prop :=
  (∀ (s : State) (c : Instr) (code : Word), s.Accepts → windowCode c = some code →
     c ∈ [.ringFlush, .ringMarks, .ringPolicy, .ringFill, .ringPeek] →
     (16 ≤ s.win.arg0.toNat → exec c s = .next (s.onlyAnswered code (.plain .badParam))) ∧
     ∀ r : RingId, s.win.arg0.toNat = r.val → (s.ring r).state = .closed →
       exec c s = .next (s.onlyAnswered code (.plain .ringState))) ∧
  (∀ s : State, s.Accepts →
     (4 ≤ s.win.arg0.toNat ∨ 32 ≤ s.win.arg1.toNat ∨ s.win.arg2.toNat % 4 = 3 →
       exec .mapWrite s = .next (s.onlyAnswered 0x40 (.plain .badParam))) ∧
     (4 ≤ s.win.arg0.toNat ∨ 32 ≤ s.win.arg1.toNat →
       exec .mapConst s = .next (s.onlyAnswered 0x41 (.plain .badParam))) ∧
     (4 ≤ s.win.arg0.toNat →
       exec .mapClear s = .next (s.onlyAnswered 0x42 (.plain .badParam)) ∧
       exec .mapCopy s = .next (s.onlyAnswered 0x43 (.plain .badParam)) ∧
       exec .mapSwap s = .next (s.onlyAnswered 0x45 (.plain .badParam)) ∧
       exec .mapCancel s = .next (s.onlyAnswered 0x46 (.plain .badParam))) ∧
     (4 ≤ s.win.arg0.toNat ∨ 2 ≤ s.win.arg1.toNat ∨ 32 ≤ s.win.arg2.toNat ∨ 2 ≤ s.win.arg3.toNat →
       exec .mapRead s = .next (s.onlyAnswered 0x44 (.plain .badParam))))

/-- RING_STATUS answers Level and the packed status, and reset values for a CLOSED ring; RING_STATS answers both
counters as they stand and clears them on request; RING_PEEK answers the cell at an offset of the cells the ring
holds, low half first and 0 above its width, and EMPTY from the Level on; each with its refusals. Nothing else
changes. Last, the holder codes and the zone codes. -/
def Obligations.RingReadingCommandsAnswerTheRecord : Prop :=
  (∀ s : State, s.Accepts →
     (16 ≤ s.win.arg0.toNat → exec .ringStatus s = .next (s.onlyAnswered 0x16 (.plain .badParam))) ∧
     ∀ r : RingId, s.win.arg0.toNat = r.val →
       ((s.ring r).state = .closed → exec .ringStatus s = .next (s.onlyAnswered 0x16 ⟨.done, 0, 0⟩)) ∧
       ((s.ring r).state = .opened → (s.ring r).level < 65536 →
         ∃ level status, exec .ringStatus s = .next (s.onlyAnswered 0x16 ⟨.done, level, status⟩) ∧
           level.toNat = (s.ring r).level ∧
           status.toNat = (s.ring r).producer.code + 16 * (s.ring r).consumer.code + 256
             + 512 * (s.ring r).zone.code + 2048 * (s.ring r).prime.toNat + 4096 * (s.ring r).primed.toNat
             + 8192 * (s.ring r).underrunEpisode.toNat + 16384 * (s.ring r).overrunEpisode.toNat)) ∧
  (∀ s : State, s.Accepts →
     (16 ≤ s.win.arg0.toNat ∨ 1 < s.win.arg1.toNat →
       exec .ringStats s = .next (s.onlyAnswered 0x17 (.plain .badParam))) ∧
     ∀ r : RingId, s.win.arg0.toNat = r.val → s.win.arg1.toNat ≤ 1 →
       ((s.ring r).state = .closed → exec .ringStats s = .next (s.onlyAnswered 0x17 (.plain .ringState))) ∧
       ((s.ring r).state = .opened →
         ∃ t, exec .ringStats s = .next t ∧
           t = { s with rings := t.rings,
                        win := s.win.answered 0x17 ⟨.done, (s.ring r).underrunCount, (s.ring r).overrunCount⟩ } ∧
           s.SameRingsBut t r ∧
           t.ring r = if s.win.arg1.toNat = 1 then { s.ring r with underrunCount := 0, overrunCount := 0 }
             else s.ring r)) ∧
  (∀ s : State, s.Accepts →
     (16 ≤ s.win.arg0.toNat → exec .ringPeek s = .next (s.onlyAnswered 0x18 (.plain .badParam))) ∧
     ∀ r : RingId, s.win.arg0.toNat = r.val →
       let offset := s.win.arg1.toNat
       ((s.ring r).state = .closed → exec .ringPeek s = .next (s.onlyAnswered 0x18 (.plain .ringState))) ∧
       ((s.ring r).state = .opened → (s.ring r).level ≤ offset →
         exec .ringPeek s = .next (s.onlyAnswered 0x18 (.plain .empty))) ∧
       ((s.ring r).state = .opened → offset < (s.ring r).level →
         ∃ c, (s.cells r)[offset]? = some c ∧
           (∀ w ∈ [8, 16, 32], (s.ring r).width = w → c.toNat < 2 ^ w) ∧
           exec .ringPeek s = .next (s.onlyAnswered 0x18
             ⟨.done, BitVec.ofNat 16 (c.toNat % 65536), BitVec.ofNat 16 (c.toNat / 65536)⟩))) ∧
  (Seat.free.code = 0 ∧ (Seat.held (.agent .pr)).code = 1 ∧ (Seat.held (.agent .pw)).code = 1 ∧
    (∀ ch : ChanId, (Seat.held (.agent (.dma ch))).code = 2 + ch.val) ∧
    (∀ n : LaneId, (Seat.held (.lane n)).code = 4 + n.val ∧ (Seat.reserved n).code = 8 + n.val) ∧
    [Zone.low, .mid, .high].map Zone.code = [0, 1, 2])

/-! ## Claims at the ring table -/

/-- An append claim that finds room puts the cell, W bits of it, behind the cells the ring holds, whoever makes it;
the cell is written at the Tail, which advances, and no other ring's record or cells change. A change of the Zone
posts RING_LOW or RING_HIGH, the channels take the level report, and nothing else changes. Cells thus leave a ring in the order in which they entered it. -/
def Obligations.StoredAppendPutsTheCellLast : Prop :=
  ∀ (s : State) (r : RingId) (c : Cell) (who : Appender), s.MemoryOk → s.RingsOk → s.RegionsDisjoint →
    (s.ring r).state = .opened → (s.ring r).level < (s.ring r).cap →
    let level := (s.ring r).level + 1
    let zone : Zone :=
      if level ≤ (s.ring r).lowMark then .low else if (s.ring r).highMark ≤ level then .high else .mid
    ∃ t, s.appendClaim r c who = (t, true) ∧
      t.cells r = s.cells r ++ [lowBits (s.ring r).width c] ∧
      (∀ q, q ≠ r → t.ring q = s.ring q ∧ t.cells q = s.cells q) ∧
      t.ring r = { s.ring r with
        tail := if (s.ring r).tail + 1 < (s.ring r).cap then (s.ring r).tail + 1 else 0,
        level := level, zone := zone, overrunEpisode := false,
        primed := (s.ring r).primed || decide ((s.ring r).highMark ≤ level) } ∧
      t = { s with
        mem := Memory.writeCell s.mem (s.ring r).base (s.ring r).width (s.ring r).tail c, rings := t.rings,
        chans := ({ s with rings := t.rings }.report r).chans,
        notices := if zone = (s.ring r).zone then s.notices
          else match zone with
            | .low => s.notices.post ⟨.ringLow, .ring r, none, 0⟩
            | .high => s.notices.post ⟨.ringHigh, .ring r, none, 0⟩
            | .mid => s.notices }

/-- A removal hands over the first of the cells the ring holds, by a host agent's claim and by a lane's claim that
is not held back alike; the Head advances, LastOut takes the cell, an underrun episode ends, and no other ring changes. A change of the Zone
posts RING_LOW or RING_HIGH, the channels take the level report, and nothing else changes. -/
def Obligations.RemovalTakesTheFirstCell : Prop :=
  ∀ (s : State) (r : RingId) (n : LaneId), s.RingsOk →
    (s.ring r).state = .opened → 0 < (s.ring r).level →
    let level := (s.ring r).level - 1
    let zone : Zone :=
      if level ≤ (s.ring r).lowMark then .low else if (s.ring r).highMark ≤ level then .high else .mid
    ∃ t c, s.removeForHost r = (t, c, true) ∧
      ((s.ring r).prime = false ∨ (s.ring r).primed = true → s.removeForLane r n = (t, c)) ∧
      s.cells r = c :: t.cells r ∧ (∀ q, q ≠ r → t.ring q = s.ring q ∧ t.cells q = s.cells q) ∧
      t.ring r = { s.ring r with
        head := if (s.ring r).head + 1 < (s.ring r).cap then (s.ring r).head + 1 else 0,
        level := level, zone := zone, lastOut := c, underrunEpisode := false } ∧
      t = { s with
        rings := t.rings, chans := ({ s with rings := t.rings }.report r).chans,
        notices := if zone = (s.ring r).zone then s.notices
          else match zone with
            | .low => s.notices.post ⟨.ringLow, .ring r, none, 0⟩
            | .high => s.notices.post ⟨.ringHigh, .ring r, none, 0⟩
            | .mid => s.notices }

/-- A remove claim that removes nothing. A lane's claim held back under priming changes nothing and is handed the
substitute; one on an empty ring not held back counts an underrun up to 65535, and outside an episode begins one,
clears Primed and posts RING_UNDERRUN; a host agent's claim on an empty ring changes nothing and is handed Fill. -/
def Obligations.RemoveClaimsThatRemoveNothing : Prop :=
  ∀ (s : State) (r : RingId) (n : LaneId), (s.ring r).state = .opened →
    let g := s.ring r
    let substitute : Cell := match g.emptyPolicy with
      | .fill => g.fill
      | .repeatLast => g.lastOut
    (g.prime = true → g.primed = false → s.removeForLane r n = (s, substitute)) ∧
    (g.level = 0 → s.removeForHost r = (s, g.fill, false)) ∧
    (g.level = 0 → g.prime = false ∨ g.primed = true →
      ∃ t, s.removeForLane r n = (t, substitute) ∧ s.SameRingsBut t r ∧
        t = { s with rings := t.rings,
                     notices := if g.underrunEpisode then s.notices
                       else s.notices.post
                         ⟨.ringUnderrun, .ring r, some (s.lane n).frameCount, BitVec.ofNat 8 n.val⟩ } ∧
        t.ring r = { g with underrunEpisode := true, primed := if g.underrunEpisode then g.primed else false,
                            underrunCount := BitVec.ofNat 16 (min (g.underrunCount.toNat + 1) 65535) })

/-- An append claim on a full ring. From a host agent: the cell is discarded. From a lane: under DROP_NEW it is
discarded, Head, Tail and memory staying; under DROP_OLDEST the first cell goes, the new one is written at the Tail
and stands last. Either way a lane's overrun is counted up to 65535, and outside an episode one begins and
RING_OVERRUN is posted. Each primes the ring. -/
def Obligations.FullRingAnswersByClaimantAndPolicy : Prop :=
  ∀ (s : State) (r : RingId) (c : Cell) (n : LaneId), s.MemoryOk → s.RingsOk → s.RegionsDisjoint →
    (s.ring r).state = .opened → (s.ring r).level = (s.ring r).cap →
    (∃ t, s.appendClaim r c .host = (t, false) ∧ t = { s with rings := t.rings } ∧ s.SameRingsBut t r ∧
      t.ring r = { s.ring r with primed := true }) ∧
    let next (i : Nat) : Nat := if i + 1 < (s.ring r).cap then i + 1 else 0
    let displaces := (s.ring r).fullPolicy = .dropOldest
    ∃ t, s.appendClaim r c (.lane n) = (t, false) ∧ (∀ q, q ≠ r → t.ring q = s.ring q ∧ t.cells q = s.cells q) ∧
      t.cells r = (if displaces then (s.cells r).tail ++ [lowBits (s.ring r).width c] else s.cells r) ∧
      t = { s with
        mem := if displaces then
            Memory.writeCell s.mem (s.ring r).base (s.ring r).width (s.ring r).tail c
          else s.mem,
        rings := t.rings,
        notices := if (s.ring r).overrunEpisode then s.notices
          else s.notices.post ⟨.ringOverrun, .ring r, some (s.lane n).frameCount, BitVec.ofNat 8 n.val⟩ } ∧
      t.ring r = { s.ring r with
        head := if displaces then next (s.ring r).head else (s.ring r).head,
        tail := if displaces then next (s.ring r).tail else (s.ring r).tail,
        primed := true, overrunEpisode := true,
        overrunCount := BitVec.ofNat 16 (min ((s.ring r).overrunCount.toNat + 1) 65535) }

/-- A change of a ring's Level is reported to the channels that hold a seat of the ring: an ACTIVE channel with
Grant 0 records a grant of Want where Available is at least Want. Nothing else changes, and no other channel. -/
def Obligations.LevelReportsEvaluateRequests : Prop :=
  ∀ (s : State) (r : RingId) (ch : ChanId),
    let c := s.chan ch
    let want := match c.mode with
      | .free => c.quantum
      | .count => min c.quantum c.tally.toNat
    s.report r = { s with chans := (s.report r).chans } ∧
    ((∀ a, c.attach = some a → a.ring ≠ r) → (s.report r).chan ch = c) ∧
    ∀ a, c.attach = some a → a.ring = r →
      let available := match a.side with
        | .consumer => (s.ring r).level
        | .producer => (s.ring r).cap - (s.ring r).level
      (s.report r).chan ch =
        if c.state = .active ∧ c.grant = 0 ∧ want ≤ available then { c with grant := want } else c

/-! ## Seats of host agents -/

/-- ATTACH by its checks in order; it gives the agent the seat and its record, and no more. -/
def Obligations.AttachChecksAndTakesTheSeat : Prop :=
  ∀ s : State, s.Accepts →
    let param := s.win.arg0.toNat ≤ 3 ∧ s.win.arg1.toNat ≤ 15 ∧ s.win.arg2.toNat ≤ 1 ∧
      ¬(s.win.arg0.toNat = 0 ∧ s.win.arg2.toNat = 0) ∧ ¬(s.win.arg0.toNat = 1 ∧ s.win.arg2.toNat = 1)
    let agentCode : Agent → Nat
      | .pr => 0
      | .pw => 1
      | .dma ch => 2 + ch.val
    let seatCode : Side → Nat
      | .producer => 0
      | .consumer => 1
    (¬param → exec .attach s = .next (s.onlyAnswered 0x20 (.plain .badParam))) ∧
    ∀ (a : Agent) (r : RingId) (side : Side), param → s.win.arg0.toNat = agentCode a →
      s.win.arg1.toNat = r.val → s.win.arg2.toNat = seatCode side →
      ((s.ring r).state = .closed → exec .attach s = .next (s.onlyAnswered 0x20 (.plain .ringState))) ∧
      ((s.ring r).state = .opened → s.attachOf a ≠ none →
        exec .attach s = .next (s.onlyAnswered 0x20 (.plain .agentBusy))) ∧
      ((s.ring r).state = .opened → s.attachOf a = none → (s.ring r).seat side ≠ .free →
        exec .attach s = .next (s.onlyAnswered 0x20 (.plain .seatBusy))) ∧
      ((s.ring r).state = .opened → s.attachOf a = none → (s.ring r).seat side = .free →
        ∃ t, exec .attach s = .next t ∧
          t = { s with rings := t.rings, pr := t.pr, pw := t.pw, chans := t.chans,
                       win := s.win.answered 0x20 (.plain .done) } ∧
          s.SameRingsBut t r ∧ t.ring r = (s.ring r).setSeat side (.held (.agent a)) ∧
          t.attachOf a = some ⟨r, side⟩ ∧ (∀ b, b ≠ a → t.attachOf b = s.attachOf b) ∧
          t.pr = { s.pr with record := t.pr.record } ∧ t.pw = { s.pw with record := t.pw.record } ∧
          ∀ ch, t.chan ch = { s.chan ch with record := (t.chan ch).record })

/-- DETACH by its checks in order; it frees the seat, clears the agent's latch, staging and grant, takes Phase to
FIRST, and leaves the ring's other fields, the flags, the configuration and the count as they stand. That it ends a
re-assertion gap is the model's reading (log 16), and that the record's Ring and Seat stay as they stand is the model's
choice (log 18). -/
def Obligations.DetachChecksAndFreesTheSeat : Prop :=
  ∀ s : State, s.Accepts →
    (4 ≤ s.win.arg0.toNat → exec .detach s = .next (s.onlyAnswered 0x21 (.plain .badParam))) ∧
    let agentCode : Agent → Nat
      | .pr => 0
      | .pw => 1
      | .dma ch => 2 + ch.val
    ∀ a : Agent, s.win.arg0.toNat = agentCode a →
      (s.attachOf a = none → exec .detach s = .next (s.onlyAnswered 0x21 (.plain .notAttached))) ∧
      ∀ att : Attachment, s.attachOf a = some att →
        ((∃ ch, a = .dma ch ∧ (s.chan ch).state ≠ .idle) →
          exec .detach s = .next (s.onlyAnswered 0x21 (.plain .agentBusy))) ∧
        ((∀ ch, a = .dma ch → (s.chan ch).state = .idle) →
          ∃ t, exec .detach s = .next t ∧
            t = { s with rings := t.rings, pr := t.pr, pw := t.pw, chans := t.chans,
                         win := s.win.answered 0x21 (.plain .done) } ∧
            s.SameRingsBut t att.ring ∧ t.ring att.ring = (s.ring att.ring).setSeat att.side .free ∧
            t.attachOf a = none ∧ (∀ b, b ≠ a → t.attachOf b = s.attachOf b) ∧
            t.pr = (if a = .pr then
                { s.pr with record := { s.pr.record with attached := false }, latch := 0 }
              else s.pr) ∧
            t.pw = (if a = .pw then
                { s.pw with record := { s.pw.record with attached := false }, staging := 0 }
              else s.pw) ∧
            ∀ ch, t.chan ch =
              if a = .dma ch then
                { s.chan ch with
                  record := { (s.chan ch).record with attached := false },
                  latch := 0, staging := 0, grant := 0, gap := false, phase := .first }
              else s.chan ch)

/-! ## Commands on lanes -/

/-- LANE_SET by its checks in order, with the values of each parameter. A value written takes its parameter's field and no other; a raise of SLOTS
takes the names of rings out of the live entries that come into range. -/
def Obligations.LaneSetChecksAndWritesOneParameter : Prop :=
  ∀ s : State, s.Accepts →
    let param := s.win.arg1.toNat
    let value := s.win.arg2.toNat
    let inRange :=
      ((param = 0 ∨ param = 4 ∨ param = 5 ∨ param = 6 ∨ param = 7) ∧ value ≤ 1) ∨
      (param = 1 ∧ 1 ≤ value ∧ value ≤ 32) ∨ (param = 2 ∧ (value = 8 ∨ value = 16 ∨ value = 32)) ∨
      (param = 3 ∧ value ≤ 63) ∨ (param = 8 ∧ 1 ≤ value ∧ value ≤ 4096) ∨ (param = 9 ∧ 1 ≤ value ∧ value ≤ 8) ∨
      (param = 10 ∧ value ≤ 7) ∨ (param = 11 ∧ 1 ≤ value ∧ value ≤ 255)
    (4 ≤ s.win.arg0.toNat ∨ ¬inRange →
      exec .laneSet s = .next (s.onlyAnswered 0x30 (.plain .badParam))) ∧
    ∀ n : LaneId, s.win.arg0.toNat = n.val → inRange →
      let bound := ∃ r side, (s.ring r).seat side = .held (.lane n) ∨ (s.ring r).seat side = .reserved n
      ((s.lane n).state ≠ .off → exec .laneSet s = .next (s.onlyAnswered 0x30 (.plain .laneState))) ∧
      ((s.lane n).state = .off → param = 1 ∨ param = 2 → bound ∨ (s.smap n).swapPending = true →
        exec .laneSet s = .next (s.onlyAnswered 0x30 (.plain .laneState))) ∧
      ((s.lane n).state = .off → (param = 1 ∨ param = 2 → ¬bound ∧ (s.smap n).swapPending = false) →
        ∃ t, exec .laneSet s = .next t ∧
          t = { s with lanes := t.lanes, maps := t.maps, win := s.win.answered 0x30 (.plain .done) } ∧
          s.SameLanesBut t n ∧ s.SameMapsBut t n ∧ t.lane n = { s.lane n with cfg := (t.lane n).cfg } ∧
          (t.lane n).cfg =
            { role := if param = 0 then (if value = 1 then .master else .follower) else (s.lane n).cfg.role,
              slots := if param = 1 then value else (s.lane n).cfg.slots,
              width := if param = 2 then value else (s.lane n).cfg.width,
              gap := if param = 3 then value else (s.lane n).cfg.gap,
              syncForm := if param = 4 then (if value = 1 then .slot else .pulse) else (s.lane n).cfg.syncForm,
              syncEarly := if param = 5 then value == 1 else (s.lane n).cfg.syncEarly,
              bitOrder := if param = 6 then (if value = 1 then .lsbFirst else .msbFirst)
                else (s.lane n).cfg.bitOrder,
              clockEdge := if param = 7 then (if value = 1 then .driveFall else .driveRise)
                else (s.lane n).cfg.clockEdge,
              divisor := if param = 8 then value else (s.lane n).cfg.divisor,
              relock := if param = 9 then value else (s.lane n).cfg.relock,
              flywheel := if param = 10 then value else (s.lane n).cfg.flywheel,
              watch := if param = 11 then value else (s.lane n).cfg.watch } ∧
          (t.smap n).live = (s.smap n).live ∧ (t.smap n).swapPending = (s.smap n).swapPending ∧
          (t.smap n).editBank = (s.smap n).editBank ∧
          ∀ i : Fin 32, (t.smap n).liveBank[i] =
            if param = 1 ∧ (s.lane n).cfg.slots ≤ i.val ∧ i.val < value then
              { (s.smap n).liveBank[i] with
                txKind := if (s.smap n).liveBank[i].txKind = .ring then .quiet else (s.smap n).liveBank[i].txKind,
                rxKind := if (s.smap n).liveBank[i].rxKind = .ring then .ignore else (s.smap n).liveBank[i].rxKind }
            else (s.smap n).liveBank[i])

/-- LANE_START by its checks. A follower goes to ARMING with its watch started. A master takes frame 1 within the
command: RUNNING, FrameCount 1, LANE_LOCKED, then the slot start of slot 0 with its mark and its claim, and the first
drive edge, at which the transmit pin takes the cell's first bit and the sync pin rises for the length of its form, or
stays low with SYNC_EARLY on (syncLeft: log 23); seats, banks, other lanes and, where slot 0 does not claim from a ring,
every ring and channel stay. That the lane then stands in the first half of its bit clock, and the values of the model's
own fields there, are the model's (logs 4, 22); so is it that TxBits is 0 after the drive edge of a QUIET slot
(log 14). -/
def Obligations.LaneStartArmsAFollowerAndRunsAMaster : Prop :=
  (∀ s : State, s.Accepts →
     (4 ≤ s.win.arg0.toNat → exec .laneStart s = .next (s.onlyAnswered 0x31 (.plain .badParam))) ∧
     ∀ n : LaneId, s.win.arg0.toNat = n.val →
       ((s.lane n).state ≠ .off → exec .laneStart s = .next (s.onlyAnswered 0x31 (.plain .laneState))) ∧
       ((s.lane n).state = .off → (s.lane n).cfg.role = .follower →
         ∃ t, exec .laneStart s = .next t ∧
           t = { s with lanes := t.lanes, win := s.win.answered 0x31 (.plain .done) } ∧ s.SameLanesBut t n ∧
           (t.lane n).state = .arming ∧ (t.lane n).frameCount = 0 ∧ (t.lane n).lastCause = .none ∧
           (t.lane n).goodSyncs = 0 ∧ (t.lane n).lastSync = none ∧ (t.lane n).missedRun = 0 ∧
           (t.lane n).syncSample = true ∧ (t.lane n).watchRunning = true ∧ (t.lane n).cfg = (s.lane n).cfg ∧
           (t.lane n).txPin = (s.lane n).txPin ∧ (t.lane n).bclkPin = (s.lane n).bclkPin ∧
           (t.lane n).fsyncPin = (s.lane n).fsyncPin)) ∧
  (∀ (s : State) (n : LaneId), s.Accepts → s.win.arg0.toNat = n.val → (s.lane n).state = .off →
     (s.lane n).cfg.role = .master → (s.smap n).swapPending = false →
     let e := (s.smap n).liveBank[0]
     let frame := (s.lane n).cfg.slots * (s.lane n).cfg.width + (s.lane n).cfg.gap
     let syncLen := match (s.lane n).cfg.syncForm with
       | .pulse => 1
       | .slot => if frame = (s.lane n).cfg.width then (s.lane n).cfg.width - 1 else (s.lane n).cfg.width
     let locked := { s.setLane n { s.lane n with
         state := .running, frameCount := 1, position := 0, lastCause := .none, goodSyncs := 0, lastSync := none,
         missedRun := 0, syncSample := true, half := .opening, between := false, arrivalDue := false,
         checkDue := false, lockNotice := none, syncLeft := 0 } with
       win := { s.win with cmd := 0x31 }, notices := s.notices.post ⟨.laneLocked, .lane n, some 1, 0⟩ }
     let u := locked.slotStart n 0
     let bit := match (s.lane n).cfg.bitOrder with
       | .msbFirst => (s.lane n).cfg.width - 1
       | .lsbFirst => 0
     ∃ t, exec .laneStart s = .next t ∧
       t = { u with lanes := t.lanes, win := s.win.answered 0x31 (.plain .done) } ∧
       (0 < (s.lane n).cfg.slots * (s.lane n).cfg.width →
         t.lane n = { u.lane n with
           half := .driven, bclkPin := (t.lane n).bclkPin, fsyncPin := (t.lane n).fsyncPin,
           syncLeft := (t.lane n).syncLeft,
           txPin := match (u.lane n).txCell with
             | .quiet => .hiZ
             | .cell c => if c.getLsbD bit then .high else .low,
           txBits := match (u.lane n).txCell with
             | .quiet => 0
             | .cell _ => 1 }) ∧
       t = { s with lanes := t.lanes, rings := t.rings, notices := t.notices, chans := t.chans,
                    win := s.win.answered 0x31 (.plain .done) } ∧
       s.SameLanesBut t n ∧ (t.lane n).cfg = (s.lane n).cfg ∧
       (t.lane n).state = .running ∧ (t.lane n).frameCount = 1 ∧ (t.lane n).position = 0 ∧
       (t.lane n).lastCause = .none ∧ (t.lane n).missedRun = 0 ∧ (t.lane n).goodSyncs = 0 ∧
       (t.lane n).lastSync = none ∧ (t.lane n).half = .driven ∧
       (t.lane n).bclkPin = (match (s.lane n).cfg.clockEdge with
         | .driveRise => .high
         | .driveFall => .low) ∧
       ((s.lane n).cfg.syncEarly = false →
         (t.lane n).fsyncPin = (if 0 < syncLen then .high else .low) ∧ (t.lane n).syncLeft = syncLen - 1) ∧
       ((s.lane n).cfg.syncEarly = true → frame ≠ 1 → (t.lane n).fsyncPin = .low ∧ (t.lane n).syncLeft = 0) ∧
       (∀ r, (t.ring r).producer = (s.ring r).producer ∧ (t.ring r).consumer = (s.ring r).consumer) ∧
       (e.txKind ≠ .ring → t.rings = s.rings ∧ t.chans = s.chans ∧
         t.notices = (if e.mark then
             (s.notices.post ⟨.laneLocked, .lane n, some 1, 0⟩).post ⟨.slotMark, .lane n, some 1, 0⟩
           else s.notices.post ⟨.laneLocked, .lane n, some 1, 0⟩)))

/-- What entry to OFF does: the lane's pins, slot registers and lock counts, and the end of a pending swap with
SWAP_CANCELLED; FrameCount, LastCause, configuration, banks and held seats stay. -/
def Obligations.EntryToOffReleasesTheLane : Prop :=
  ∀ (s : State) (n : LaneId),
    let t := s.enterOff n
    let pending := (s.smap n).swapPending
    t = { s with lanes := t.lanes, maps := t.maps, rings := t.rings,
                 notices := if pending then s.notices.post ⟨.swapCancelled, .lane n, none, 0⟩ else s.notices } ∧
    s.SameLanesBut t n ∧ s.SameMapsBut t n ∧ t.smap n = { s.smap n with swapPending := false } ∧
    (t.lane n).state = .off ∧ (t.lane n).txPin = .hiZ ∧ (t.lane n).bclkPin = .hiZ ∧ (t.lane n).fsyncPin = .hiZ ∧
    (t.lane n).txCell = .quiet ∧ (t.lane n).txBits = 0 ∧ (t.lane n).rxCell = 0 ∧ (t.lane n).rxBits = 0 ∧
    (t.lane n).rxTarget = .ignore ∧ (t.lane n).goodSyncs = 0 ∧ (t.lane n).lastSync = none ∧
    (t.lane n).missedRun = 0 ∧ (t.lane n).syncSample = true ∧ (t.lane n).watchRunning = false ∧
    (t.lane n).frameCount = (s.lane n).frameCount ∧ (t.lane n).lastCause = (s.lane n).lastCause ∧
    (t.lane n).cfg = (s.lane n).cfg ∧
    ∀ r side, (s.ring r).SameButSeats (t.ring r) ∧
      (t.ring r).seat side =
        if pending = true ∧ (s.ring r).seat side = .reserved n then .free else (s.ring r).seat side

/-- LANE_STOP by the lane's state; LANE_ABORT takes a lane that is not OFF to OFF at once, with no lane notice. That
LANE_STOP leaves as it is the sync pin of a SYNC_EARLY master which the drive edge of position F − 1 has raised is the
model's choice (log 26), and so is it that a LANE_ABORT drops a lock notice still owed (log 15). -/
def Obligations.LaneStopAndAbortActByState : Prop :=
  (∀ s : State, s.Accepts →
     (4 ≤ s.win.arg0.toNat → exec .laneStop s = .next (s.onlyAnswered 0x32 (.plain .badParam))) ∧
     ∀ n : LaneId, s.win.arg0.toNat = n.val →
       ((s.lane n).state = .running →
         exec .laneStop s = .next ((s.setLane n { s.lane n with state := .stopping }).onlyAnswered 0x32
           (.plain .accepted))) ∧
       ((s.lane n).state = .arming ∨ (s.lane n).state = .hunt →
         exec .laneStop s = .next ((s.enterOff n).onlyAnswered 0x32 (.plain .done))) ∧
       ((s.lane n).state = .stopping → exec .laneStop s = .next (s.onlyAnswered 0x32 (.plain .already))) ∧
       ((s.lane n).state = .off → exec .laneStop s = .next (s.onlyAnswered 0x32 (.plain .laneState)))) ∧
  (∀ s : State, s.Accepts →
     (4 ≤ s.win.arg0.toNat → exec .laneAbort s = .next (s.onlyAnswered 0x33 (.plain .badParam))) ∧
     ∀ n : LaneId, s.win.arg0.toNat = n.val →
       ((s.lane n).state = .off → exec .laneAbort s = .next (s.onlyAnswered 0x33 (.plain .laneState))) ∧
       ((s.lane n).state ≠ .off →
         exec .laneAbort s = .next ((s.enterOff n).onlyAnswered 0x33 (.plain .done))))

/-! ## Map commands -/

/-- MAP_WRITE, MAP_CONST, MAP_CLEAR and MAP_COPY change the edit bank alone. -/
def Obligations.EditCommandsChangeTheEditBank : Prop :=
  ∀ (s : State) (n : LaneId) (c : Instr) (code : Word), s.Accepts → s.win.arg0.toNat = n.val →
    windowCode c = some code → c ∈ [.mapWrite, .mapConst, .mapClear, .mapCopy] →
    (c = .mapWrite ∨ c = .mapConst → s.win.arg1.toNat < 32) → (c = .mapWrite → s.win.arg2.toNat % 4 ≠ 3) →
    ((s.smap n).swapPending = true → exec c s = .next (s.onlyAnswered code (.plain .swapPending))) ∧
    ((s.smap n).swapPending = false →
      ∃ t, exec c s = .next t ∧
        t = { s with maps := t.maps, win := s.win.answered code (.plain .done) } ∧ s.SameMapsBut t n ∧
        (t.smap n).live = (s.smap n).live ∧ (t.smap n).swapPending = false ∧
        (t.smap n).liveBank = (s.smap n).liveBank ∧
        ∀ i : Fin 32, (t.smap n).editBank[i] =
          if c = .mapClear then ⟨.quiet, 0, 0, .ignore, 0, false⟩
          else if c = .mapCopy then (s.smap n).liveBank[i]
          else if s.win.arg1.toNat ≠ i.val then (s.smap n).editBank[i]
          else if c = .mapConst then
            { (s.smap n).editBank[i] with
              const := BitVec.ofNat 32 ((s.win.arg3.toNat * 65536 + s.win.arg2.toNat) %
                2 ^ (s.lane n).cfg.width) }
          else
            { txKind := if s.win.arg2.toNat % 4 = 0 then .quiet
                else if s.win.arg2.toNat % 4 = 1 then .const else .ring,
              txRing := ringField s.win.arg2, const := (s.smap n).editBank[i].const,
              rxKind := if s.win.arg3.toNat % 2 = 1 then .ring else .ignore,
              rxRing := ringField s.win.arg3, mark := s.win.arg3.getLsbD 8 })

/-- MAP_READ answers the fields or the Const of an entry as stored; FIELDS read from the edit bank and written back
by MAP_WRITE leave the entry as it was. A Const is answered whole whatever the present WIDTH (log 17). -/
def Obligations.MapReadAnswersTheEntry : Prop :=
  ∀ (s : State) (n : LaneId) (slot : Fin 32), s.Accepts → s.win.arg0.toNat = n.val →
    s.win.arg2.toNat = slot.val → s.win.arg1.toNat ≤ 1 → s.win.arg3.toNat ≤ 1 →
    let e := if s.win.arg1.toNat = 0 then (s.smap n).liveBank[slot] else (s.smap n).editBank[slot]
    (s.win.arg3.toNat = 1 →
      exec .mapRead s = .next (s.onlyAnswered 0x44
        ⟨.done, BitVec.ofNat 16 (e.const.toNat % 65536), BitVec.ofNat 16 (e.const.toNat / 65536)⟩)) ∧
    (s.win.arg3.toNat = 0 →
      ∃ tx rx : Word, exec .mapRead s = .next (s.onlyAnswered 0x44 ⟨.done, tx, rx⟩) ∧
        tx.toNat = e.txKind.code + 16 * e.txRing.val ∧
        rx.toNat = e.rxKind.code + 16 * e.rxRing.val + 256 * e.mark.toNat ∧
        (s.win.arg1.toNat = 1 → (s.smap n).swapPending = false →
          ∃ t, exec .mapWrite { s with win := { s.win with
              arg1 := BitVec.ofNat 16 slot.val, arg2 := tx, arg3 := rx } } = .next t ∧
            t.maps = s.maps ∧ t.win.result = .done))

/-- MAP_SWAP is refused in STOPPING and with a swap pending; then the entries 0..N−1 of the edit bank are
validated in slot order, transmit before receive, and the first that fails gives the answer with its slot and its
direction. -/
def Obligations.MapSwapValidatesTheEditBank : Prop :=
  ∀ (s : State) (n : LaneId), s.Accepts → s.win.arg0.toNat = n.val → (s.lane n).cfg.slots ≤ 32 →
    let names (i : Fin 32) (side : Side) : Option RingId :=
      match side with
      | .consumer =>
        if ((s.smap n).editBank[i]).txKind = .ring then some ((s.smap n).editBank[i]).txRing else none
      | .producer =>
        if ((s.smap n).editBank[i]).rxKind = .ring then some ((s.smap n).editBank[i]).rxRing else none
    let test (r : RingId) (side : Side) : Option Result :=
      if (s.ring r).state = .closed then some .badMap
      else if (s.ring r).width ≠ (s.lane n).cfg.width then some .widthMismatch
      else if (s.ring r).seat side = .free ∨ (s.ring r).seat side = .held (.lane n) then none
      else some .seatBusy
    let passes (i : Fin 32) (side : Side) := ∀ r, names i side = some r → test r side = none
    ((s.lane n).state = .stopping → exec .mapSwap s = .next (s.onlyAnswered 0x45 (.plain .laneState))) ∧
    ((s.lane n).state ≠ .stopping → (s.smap n).swapPending = true →
      exec .mapSwap s = .next (s.onlyAnswered 0x45 (.plain .swapPending))) ∧
    ((s.lane n).state ≠ .stopping → (s.smap n).swapPending = false →
      ∀ (i : Fin 32) (side : Side) (r : RingId) (code : Result), i.val < (s.lane n).cfg.slots →
        (∀ j : Fin 32, j < i → passes j .consumer ∧ passes j .producer) →
        (side = .producer → passes i .consumer) → names i side = some r → test r side = some code →
        exec .mapSwap s = .next (s.onlyAnswered 0x45
          ⟨code, BitVec.ofNat 16 i.val, match side with
            | .consumer => 0
            | .producer => 1⟩))

/-- A MAP_SWAP whose edit entries 0..N−1 all pass the three tests, transmit and receive, is accepted, whatever the
entries from N on hold: the seats of the rings before and after, and what else it changes. On a lane not OFF the
named FREE seats become RESERVED and the swap is pending; in OFF the banks are exchanged within the command, and the
lane then holds of the seats it held or that were FREE exactly those its new live bank names. -/
def Obligations.MapSwapReservesOrExchanges : Prop :=
  ∀ (s : State) (n : LaneId), s.Accepts → s.win.arg0.toNat = n.val → (s.lane n).state ≠ .stopping →
    (s.smap n).swapPending = false →
    let names (i : Fin 32) (side : Side) : Option RingId :=
      match side with
      | .consumer =>
        if ((s.smap n).editBank[i]).txKind = .ring then some ((s.smap n).editBank[i]).txRing else none
      | .producer =>
        if ((s.smap n).editBank[i]).rxKind = .ring then some ((s.smap n).editBank[i]).rxRing else none
    let test (r : RingId) (side : Side) : Option Result :=
      if (s.ring r).state = .closed then some .badMap
      else if (s.ring r).width ≠ (s.lane n).cfg.width then some .widthMismatch
      else if (s.ring r).seat side = .free ∨ (s.ring r).seat side = .held (.lane n) then none
      else some .seatBusy
    let passes (i : Fin 32) (side : Side) := ∀ r, names i side = some r → test r side = none
    let named (side : Side) (r : RingId) : Prop := ∃ i : Fin 32, i.val < (s.lane n).cfg.slots ∧ names i side = some r
    (∀ i : Fin 32, i.val < (s.lane n).cfg.slots → passes i .consumer ∧ passes i .producer) →
    ((s.lane n).state ≠ .off →
      ∃ t, exec .mapSwap s = .next t ∧
        t = { s with maps := t.maps, rings := t.rings, win := s.win.answered 0x45 (.plain .accepted) } ∧
        s.SameMapsBut t n ∧ t.smap n = { s.smap n with swapPending := true } ∧
        ∀ r side, (s.ring r).SameButSeats (t.ring r) ∧
          (t.ring r).seat side =
            if named side r ∧ (s.ring r).seat side = .free then .reserved n else (s.ring r).seat side) ∧
    ((s.lane n).state = .off → (∀ r side, (s.ring r).seat side ≠ .reserved n) →
      ∃ t, exec .mapSwap s = .next t ∧
        t = { s with maps := t.maps, rings := t.rings, win := s.win.answered 0x45 (.plain .done),
                     notices := s.notices.post ⟨.swapDone, .lane n, none, 0⟩ } ∧
        s.SameMapsBut t n ∧ t.smap n = { s.smap n with live := (s.smap n).live.other } ∧
        ∀ r side, (s.ring r).SameButSeats (t.ring r) ∧
          (t.ring r).seat side =
            if named side r ∧ (s.ring r).seat side = .free then .held (.lane n)
            else if ¬named side r ∧ (s.ring r).seat side = .held (.lane n) then .free
            else (s.ring r).seat side)

/-- MAP_CANCEL frees the lane's reservations and ends the pending swap, with no notice; with none pending it
answers ALREADY. -/
def Obligations.MapCancelEndsAPendingSwap : Prop :=
  ∀ s : State, s.Accepts →
    (4 ≤ s.win.arg0.toNat → exec .mapCancel s = .next (s.onlyAnswered 0x46 (.plain .badParam))) ∧
    ∀ n : LaneId, s.win.arg0.toNat = n.val →
      ((s.smap n).swapPending = false → exec .mapCancel s = .next (s.onlyAnswered 0x46 (.plain .already))) ∧
      ((s.smap n).swapPending = true →
        ∃ t, exec .mapCancel s = .next t ∧
          t = { s with maps := t.maps, rings := t.rings, win := s.win.answered 0x46 (.plain .done) } ∧
          s.SameMapsBut t n ∧ t.smap n = { s.smap n with swapPending := false } ∧
          ∀ r side, (s.ring r).SameButSeats (t.ring r) ∧
            (t.ring r).seat side =
              if (s.ring r).seat side = .reserved n then .free else (s.ring r).seat side)

/-! ## Commands on channels and the notice mask -/

/-- DMA_SET by its checks in order; one setting takes the value. That Phase stays as it stands at a FORM is the model's
choice (log 29). -/
def Obligations.DmaSetChecksAndWritesOneSetting : Prop :=
  ∀ s : State, s.Accepts →
    let setting := s.win.arg1.toNat
    let value := s.win.arg2.toNat
    let ok := (setting = 0 ∧ value ≤ 1) ∨
      (setting = 1 ∧ (value = 1 ∨ value = 2 ∨ value = 4 ∨ value = 8 ∨ value = 16)) ∨
      (setting = 2 ∧ 1 ≤ value) ∨ (setting = 3 ∧ value ≤ 1)
    (2 ≤ s.win.arg0.toNat ∨ ¬ok → exec .dmaSet s = .next (s.onlyAnswered 0x50 (.plain .badParam))) ∧
    ∀ ch : ChanId, s.win.arg0.toNat = ch.val → ok →
      ((s.chan ch).state ≠ .idle → exec .dmaSet s = .next (s.onlyAnswered 0x50 (.plain .agentBusy))) ∧
      ((s.chan ch).state = .idle →
        ∃ t, exec .dmaSet s = .next t ∧
          t = { s with chans := t.chans, win := s.win.answered 0x50 (.plain .done) } ∧ s.SameChansBut t ch ∧
          t.chan ch = { s.chan ch with
            mode := if setting = 0 then (if value = 1 then .free else .count) else (s.chan ch).mode,
            quantum := if setting = 1 then value else (s.chan ch).quantum,
            count := if setting = 2 then s.win.arg2 else (s.chan ch).count,
            form := if setting = 3 then (if value = 1 then .addressed else .acked) else (s.chan ch).form })

/-- DMA_GO by its checks in order; the run starts with Tally by its mode, and its request is evaluated at once.
DMA_HALT takes a channel in ACTIVE or FAULT to IDLE with its request withdrawn; Tally, STRAY, configuration and seat
stay; in IDLE it answers ALREADY. That a start and a halt end a re-assertion gap is the model's reading (log 16). -/
def Obligations.DmaGoStartsAndHaltEndsARun : Prop :=
  (∀ s : State, s.Accepts →
     (2 ≤ s.win.arg0.toNat → exec .dmaGo s = .next (s.onlyAnswered 0x51 (.plain .badParam))) ∧
     ∀ ch : ChanId, s.win.arg0.toNat = ch.val →
       ((s.chan ch).attach = none → exec .dmaGo s = .next (s.onlyAnswered 0x51 (.plain .notAttached))) ∧
       ((s.chan ch).attach ≠ none → (s.chan ch).state ≠ .idle →
         exec .dmaGo s = .next (s.onlyAnswered 0x51 (.plain .agentBusy))) ∧
       ∀ a, (s.chan ch).attach = some a → (s.chan ch).state = .idle →
         let tally : Word := match (s.chan ch).mode with
           | .count => (s.chan ch).count
           | .free => 0
         let want := match (s.chan ch).mode with
           | .count => min (s.chan ch).quantum (s.chan ch).count.toNat
           | .free => (s.chan ch).quantum
         let available := match a.side with
           | .consumer => (s.ring a.ring).level
           | .producer => (s.ring a.ring).cap - (s.ring a.ring).level
         ∃ t, exec .dmaGo s = .next t ∧
           t = { s with chans := t.chans, win := s.win.answered 0x51 (.plain .done) } ∧ s.SameChansBut t ch ∧
           t.chan ch = { s.chan ch with
             state := .active, tally := tally, latch := 0, staging := 0, phase := .first, gap := false,
             grant := if want ≤ available then want else 0 }) ∧
  (∀ s : State, s.Accepts →
     (2 ≤ s.win.arg0.toNat → exec .dmaHalt s = .next (s.onlyAnswered 0x52 (.plain .badParam))) ∧
     ∀ ch : ChanId, s.win.arg0.toNat = ch.val →
       ((s.chan ch).state = .idle → exec .dmaHalt s = .next (s.onlyAnswered 0x52 (.plain .already))) ∧
       ((s.chan ch).state ≠ .idle →
         ∃ t, exec .dmaHalt s = .next t ∧
           t = { s with chans := t.chans, win := s.win.answered 0x52 (.plain .done) } ∧ s.SameChansBut t ch ∧
           t.chan ch = { s.chan ch with state := .idle, grant := 0, latch := 0, staging := 0, phase := .first,
                                        gap := false } ∧
           (t.chan ch).drqPin = false))

/-- NOTICE_MASK takes the written enables of codes 1 to 15, keeps codes 16 and 17 enabled and the other bits 0, and
answers the mask in force. Records in the queue and Lost stay. -/
def Obligations.NoticeMaskKeepsTwoKindsEnabled : Prop :=
  ∀ s : State, s.Accepts →
    ∃ m : BitVec 32,
      (∀ k, k < 32 → m.getLsbD k =
        if 1 ≤ k ∧ k ≤ 15 then s.win.arg0.getLsbD k else decide (k = 16 ∨ k = 17)) ∧
      exec .noticeMask s = .next { s with
        notices := { s.notices with mask := m },
        win := s.win.answered 0x60 ⟨.done, BitVec.ofNat 16 (m.toNat % 65536), 3⟩ }

/-! ## The notice queue -/

/-- A post: nothing for a disabled kind; a record behind the newest for 0 to 31 records; with 32 records the record
is dropped and Lost rises by one, up to 255. A pop: nothing on an empty queue; else the oldest record goes, and with
Lost above 0 a NOTICE_LOST record carrying Lost stands last and Lost becomes 0; the written value is ignored. -/
def Obligations.PostsAndPopsOfTheNoticeQueue : Prop :=
  (∀ (u : NoticeUnit) (x : Notice),
     (u.mask.getLsbD x.kind.code = false → u.post x = u) ∧
     (u.mask.getLsbD x.kind.code = true → u.queue.length ≤ 31 →
       u.post x = { u with queue := u.queue ++ [x] } ∧ (u.post x).interrupt = true) ∧
     (u.mask.getLsbD x.kind.code = true → 32 ≤ u.queue.length →
       u.post x = { u with lost := BitVec.ofNat 8 (min (u.lost.toNat + 1) 255) })) ∧
  (∀ (s : State) (v : Word), s.resetLow = false →
     (s.notices.queue = [] → exec (.noticePop v) s = .next s) ∧
     ∀ (x : Notice) (rest : List Notice), s.notices.queue = x :: rest →
       ∃ t, exec (.noticePop v) s = .next t ∧
         t = { s with notices := { s.notices with
           queue := if s.notices.lost = 0 then rest else rest ++ [⟨.noticeLost, .part, none, s.notices.lost⟩],
           lost := 0 } } ∧
         t.notices.interrupt = decide (t.notices.queue ≠ []))

/-! ## Register ports -/

/-- A read of `PR_DataLo`. Attached to a ring with cells: a removal. Attached to an empty ring: Fill and UNDERFLOW.
Unattached: 0, and STRAY in READY. PORT_FAULT is posted where the flag was clear. -/
def Obligations.PrReadRemovesOrFaults : Prop :=
  ∀ s : State, s.resetLow = false →
    (s.pr.attach = none →
      exec .prDataLoRead s = .next
        (if s.win.ready = false then { s with readData := 0 }
         else { s with readData := 0, pr := { s.pr with stray := true },
                       notices := if s.pr.stray then s.notices else s.notices.post ⟨.portFault, .pr, none, 2⟩ })) ∧
    ∀ a, s.pr.attach = some a → (s.ring a.ring).state = .opened →
      (0 < (s.ring a.ring).level →
        let c := s.headCell a.ring
        exec .prDataLoRead s = .next { (s.removeForHost a.ring).1 with
          readData := BitVec.ofNat 16 (c.toNat % 65536),
          pr := if (s.ring a.ring).width = 32 then { s.pr with latch := BitVec.ofNat 16 (c.toNat / 65536) }
            else s.pr }) ∧
      ((s.ring a.ring).level = 0 →
        let c := (s.ring a.ring).fill
        exec .prDataLoRead s = .next { s with
          readData := BitVec.ofNat 16 (c.toNat % 65536),
          pr := { s.pr with
            latch := if (s.ring a.ring).width = 32 then BitVec.ofNat 16 (c.toNat / 65536) else s.pr.latch,
            underflow := true },
          notices := if s.pr.underflow then s.notices else s.notices.post ⟨.portFault, .pr, none, 1⟩ })

/-- Writes of `PW_DataHi` and `PW_DataLo`. The high half is staged on a 32-bit ring only. The low write forms the
cell and appends it, and clears Staging; on a full ring OVERFLOW is set. Unattached: STRAY in READY. -/
def Obligations.PwWritesStageAndAppend : Prop :=
  ∀ (s : State) (v : Word), s.resetLow = false →
    (s.pw.attach = none →
      let t := if s.win.ready = false then s
        else { s with pw := { s.pw with stray := true },
                      notices := if s.pw.stray then s.notices else s.notices.post ⟨.portFault, .pw, none, 2⟩ }
      exec (.pwDataHiWrite v) s = .next t ∧ exec (.pwDataLoWrite v) s = .next t) ∧
    ∀ a, s.pw.attach = some a →
      exec (.pwDataHiWrite v) s = .next
        (if (s.ring a.ring).width = 32 then { s with pw := { s.pw with staging := v } } else s) ∧
      ((s.ring a.ring).state = .opened →
        let width := (s.ring a.ring).width
        let c : Cell := if width = 32 then BitVec.ofNat 32 (s.pw.staging.toNat * 65536 + v.toNat)
          else BitVec.ofNat 32 (v.toNat % 2 ^ width)
        ((s.ring a.ring).level < (s.ring a.ring).cap →
          exec (.pwDataLoWrite v) s = .next { (s.storeCell a.ring c) with
            pw := { s.pw with staging := 0 } }) ∧
        ((s.ring a.ring).level = (s.ring a.ring).cap →
          ∃ t, exec (.pwDataLoWrite v) s = .next t ∧ s.SameRingsBut t a.ring ∧
            t.ring a.ring = { s.ring a.ring with
              primed := (s.ring a.ring).primed || decide ((s.ring a.ring).highMark ≤ (s.ring a.ring).level) } ∧
            t = { s with rings := t.rings, pw := { s.pw with staging := 0, overflow := true },
                         notices := if s.pw.overflow then s.notices
                           else s.notices.post ⟨.portFault, .pw, none, 1⟩ }))

/-- A write of a flag register clears the flags whose positions hold 1 and changes nothing else: `PR_Flags`,
`PW_Flags`, and STRAY of `Dn_Status`. -/
def Obligations.FlagWritesClearTheFlagsWritten : Prop :=
  ∀ (s : State) (v : Word) (ch : ChanId), s.resetLow = false →
    exec (.prFlagsWrite v) s = .next { s with
      pr := { s.pr with underflow := s.pr.underflow && !v.getLsbD 0, stray := s.pr.stray && !v.getLsbD 1 } } ∧
    exec (.pwFlagsWrite v) s = .next { s with
      pw := { s.pw with overflow := s.pw.overflow && !v.getLsbD 0, stray := s.pw.stray && !v.getLsbD 1 } } ∧
    exec (.dnStatusWrite ch v) s =
      .next (s.setChan ch { s.chan ch with stray := (s.chan ch).stray && !v.getLsbD 15 })

/-! ## Data accesses of channels -/

/-- A low access of a READ channel inside its grant, by a read of `Dn_DataLo` in ADDRESSED form and by a read strobe in
ACKED form (on a 32-bit ring at Phase FIRST, which it takes to SECOND), removes the Head cell. The channel's record and
notices after it: Grant and Tally step, a COUNT run ends with DMA_DONE, a FREE count wraps with DMA_WRAP, and a
Grant that reaches 0 is evaluated anew. That the end of a COUNT run, and a Grant that reaches 0 with no new grant, end
a running re-assertion gap is the model's reading (log 16). -/
def Obligations.ReadChannelAccessMovesACell : Prop :=
  ∀ (s : State) (ch : ChanId) (r : RingId), s.resetLow = false →
    (s.chan ch).attach = some ⟨r, .consumer⟩ → (s.chan ch).state = .active →
    0 < (s.chan ch).grant → (s.ring r).state = .opened → 0 < (s.ring r).level →
    let c := s.chan ch
    let cell := s.headCell r
    let u := (s.removeForHost r).1
    let tally : Word := match c.mode with
      | .count => c.tally - 1
      | .free => c.tally + 1
    let done := c.mode = .count ∧ tally = 0
    let want := match c.mode with
      | .count => min c.quantum tally.toNat
      | .free => c.quantum
    let again := c.grant = 1 ∧ want ≤ (s.ring r).level - 1
    let moved (phase : Phase) (t : State) : Prop :=
      t = { u with readData := BitVec.ofNat 16 (cell.toNat % 65536), chans := t.chans,
                   notices := if done then u.notices.post ⟨.dmaDone, .dma ch, none, 0⟩
                     else if c.mode = .free ∧ tally = 0 then u.notices.post ⟨.dmaWrap, .dma ch, none, 0⟩
                     else u.notices } ∧
      u.SameChansBut t ch ∧
      t.chan ch = { c with
        latch := if (s.ring r).width = 32 then BitVec.ofNat 16 (cell.toNat / 65536) else 0,
        phase := phase, tally := tally,
        state := if done then .idle else .active,
        grant := if ¬done ∧ again then want else c.grant - 1,
        gap := if done then false else if c.grant = 1 then decide (again ∧ 0 < want) else c.gap }
    (c.form = .addressed → ∃ t, exec (.dnDataLoRead ch) s = .next t ∧ moved c.phase t) ∧
    (c.form = .acked → (s.ring r).width ≠ 32 ∨ c.phase = .first →
      ∃ t, exec (.acknowledgedStrobe (ch == 0) (ch == 1) none) s = .next t ∧
        moved (if (s.ring r).width = 32 then .second else c.phase) t)

/-- A low access of a WRITE channel inside its grant, by a write of `Dn_DataLo` in ADDRESSED form and by a write strobe
in ACKED form (on a 32-bit ring at Phase SECOND, which it takes to FIRST), appends the cell formed of Staging and the
written word; and a write of `Dn_DataHi` in ADDRESSED form stages the high half on a 32-bit ring. That the end of a COUNT run, and a Grant that
reaches 0 with no new grant, end a running re-assertion gap is the model's reading (log 16). -/
def Obligations.WriteChannelAccessMovesACell : Prop :=
  ∀ (s : State) (ch : ChanId) (r : RingId) (v : Word), s.resetLow = false →
    (s.chan ch).attach = some ⟨r, .producer⟩ → (s.chan ch).state = .active →
    let c := s.chan ch
    (c.form = .addressed → exec (.dnDataHiWrite ch v) s = .next
      (if (s.ring r).width = 32 then s.setChan ch { c with staging := v } else s)) ∧
    (0 < c.grant → (s.ring r).state = .opened → (s.ring r).level < (s.ring r).cap →
      let cell : Cell := if (s.ring r).width = 32 then BitVec.ofNat 32 (c.staging.toNat * 65536 + v.toNat)
        else BitVec.ofNat 32 (v.toNat % 2 ^ (s.ring r).width)
      let u := s.storeCell r cell
      let tally : Word := match c.mode with
        | .count => c.tally - 1
        | .free => c.tally + 1
      let done := c.mode = .count ∧ tally = 0
      let want := match c.mode with
        | .count => min c.quantum tally.toNat
        | .free => c.quantum
      let again := c.grant = 1 ∧ want ≤ (s.ring r).cap - ((s.ring r).level + 1)
      let moved (phase : Phase) (t : State) : Prop :=
        t = { u with chans := t.chans,
                     notices := if done then u.notices.post ⟨.dmaDone, .dma ch, none, 0⟩
                       else if c.mode = .free ∧ tally = 0 then u.notices.post ⟨.dmaWrap, .dma ch, none, 0⟩
                       else u.notices } ∧
        u.SameChansBut t ch ∧
        t.chan ch = { c with
          staging := 0, phase := phase, tally := tally, state := if done then .idle else .active,
          grant := if ¬done ∧ again then want else c.grant - 1,
          gap := if done then false else if c.grant = 1 then decide (again ∧ 0 < want) else c.gap }
      (c.form = .addressed → ∃ t, exec (.dnDataLoWrite ch v) s = .next t ∧ moved c.phase t) ∧
      (c.form = .acked → (s.ring r).width ≠ 32 ∨ c.phase = .second →
        ∃ t, exec (.acknowledgedStrobe (ch == 0) (ch == 1) (some v)) s = .next t ∧
          moved (if (s.ring r).width = 32 then .first else c.phase) t))

/-- Accesses that move no cell. Low accesses, by address in ADDRESSED form and by strobe in ACKED form, where a strobe
on a 32-bit ring changes Phase and is low at FIRST for READ, at SECOND for WRITE: ACTIVE with Grant 0: FAULT and
DMA_FAULT, Fill for a read; IDLE, FAULT or unattached: 0 for a read, and STRAY in READY, with no notice; of the wrong
sense inside a grant: 0 for a read, or ignored. By address in ACKED form: 0 for a read, writes ignored. A high write by
address is ignored on a narrower ring and by a READ channel, and sets STRAY of a WRITE channel in IDLE or FAULT. No ring
changes. A stray read of a WRITE channel is answered with Fill too (log 11); the data pins keep the word of a read
(log 12). -/
def Obligations.AccessesOutsideAGrantMoveNothing : Prop :=
  ∀ (s : State) (ch : ChanId) (v : Word), s.resetLow = false →
    let c := s.chan ch
    let strayed (u : State) := if s.win.ready then u.setChan ch { u.chan ch with stray := true } else u
    let unmoved (u : State) (read write : Instr) : Prop :=
      (c.attach = none ∨ c.state ≠ .active →
        exec read s = .next { strayed u with readData := 0 } ∧ exec write s = .next (strayed u)) ∧
      ∀ a, c.attach = some a → c.state = .active →
        let g := s.ring a.ring
        (0 < c.grant →
          (a.side = .producer → exec read s = .next { u with readData := 0 }) ∧
          (a.side = .consumer → exec write s = .next u)) ∧
        (c.grant = 0 →
          exec read s = .next { u.setChan ch { u.chan ch with
                state := .fault,
                latch := if g.width = 32 then BitVec.ofNat 16 (g.fill.toNat / 65536) else c.latch } with
              readData := BitVec.ofNat 16 (g.fill.toNat % 65536),
              notices := s.notices.post ⟨.dmaFault, .dma ch, none, 0⟩ } ∧
          exec write s = .next { u.setChan ch { u.chan ch with state := .fault, staging := 0 } with
              notices := s.notices.post ⟨.dmaFault, .dma ch, none, 0⟩ })
    let readStrobe := Instr.acknowledgedStrobe (ch == 0) (ch == 1) none
    let writeStrobe := Instr.acknowledgedStrobe (ch == 0) (ch == 1) (some v)
    (c.form = .acked →
      exec (.dnDataLoRead ch) s = .next { s with readData := 0 } ∧
      exec (.dnDataLoWrite ch v) s = .next s ∧ exec (.dnDataHiWrite ch v) s = .next s ∧
      (c.attach = none → unmoved s readStrobe writeStrobe) ∧
      ∀ a, c.attach = some a →
        ((s.ring a.ring).width ≠ 32 → unmoved s readStrobe writeStrobe) ∧
        ((s.ring a.ring).width = 32 → a.side = .consumer → c.phase = .first →
          unmoved (s.setChan ch { c with phase := .second }) readStrobe writeStrobe) ∧
        ((s.ring a.ring).width = 32 → a.side = .producer → c.phase = .second →
          unmoved (s.setChan ch { c with phase := .first }) readStrobe writeStrobe)) ∧
    (c.form = .addressed →
      unmoved s (.dnDataLoRead ch) (.dnDataLoWrite ch v) ∧
      (c.attach = none → exec (.dnDataHiWrite ch v) s = .next (strayed s)) ∧
      ∀ a, c.attach = some a →
        let g := s.ring a.ring
        (g.width ≠ 32 ∨ a.side = .consumer → exec (.dnDataHiWrite ch v) s = .next s) ∧
        (g.width = 32 → a.side = .producer → c.state ≠ .active →
          exec (.dnDataHiWrite ch v) s = .next (strayed s)))

/-- An acknowledged strobe at one channel. In ADDRESSED form it changes nothing and reads 0. In ACKED form on a
32-bit ring Phase changes at every strobe and tells the halves apart: low first for READ, high first for WRITE; a
high write stages its half in ACTIVE and sets STRAY in IDLE and FAULT. Otherwise the strobe is a low access, whose
effect ReadChannelAccessMovesACell, WriteChannelAccessMovesACell and AccessesOutsideAGrantMoveNothing give for this form
too. With both acknowledge inputs asserted the strobe is to each channel what it is with one asserted (ackAccess), in an
order left open (log 10), and a read carries the OR of the two words. -/
def Obligations.AcknowledgedStrobesFollowFormAndPhase : Prop :=
  (∀ (s : State) (ch : ChanId) (w : Option Word), s.resetLow = false →
     let strobe := Instr.acknowledgedStrobe (ch == 0) (ch == 1) w
     let c := s.chan ch
     let shown (p : State × Word) : State := match w with
       | none => { p.1 with readData := p.2 }
       | some _ => p.1
     exec strobe s = .next (shown (s.ackAccess ch w)) ∧
     (c.form = .addressed → exec strobe s = .next (shown (s, 0))) ∧
     (c.form = .acked → c.attach = none → exec strobe s = .next (shown (s.lowAccess ch w))) ∧
     ∀ a, c.attach = some a → c.form = .acked →
       ((s.ring a.ring).width ≠ 32 → exec strobe s = .next (shown (s.lowAccess ch w))) ∧
       ((s.ring a.ring).width = 32 →
         let u := s.setChan ch { c with phase := match c.phase with
           | .first => .second
           | .second => .first }
         (a.side = .consumer → c.phase = .first → exec strobe s = .next (shown (u.lowAccess ch w))) ∧
         (a.side = .consumer → c.phase = .second →
           exec strobe s = .next (match w with
             | none => { u with readData := c.latch }
             | some _ => u)) ∧
         (a.side = .producer → c.phase = .second → exec strobe s = .next (shown (u.lowAccess ch w))) ∧
         (a.side = .producer → c.phase = .first →
           exec strobe s = .next (match w with
             | none => { u with readData := c.staging }
             | some v =>
               if c.state = .active then u.setChan ch { u.chan ch with staging := v }
               else if s.win.ready then u.setChan ch { u.chan ch with stray := true }
               else u)))) ∧
  (∀ (s : State) (w : Option Word), s.resetLow = false →
     ∃ (first second : ChanId), first ≠ second ∧
       let p := { s with freeCount := s.freeCount + 1 }.ackAccess first w
       let q := p.1.ackAccess second w
       exec (.acknowledgedStrobe true true w) s = .next (match w with
         | none => { q.1 with readData := p.2 ||| q.2 }
         | some _ => q.1))

/-- The end of a re-assertion gap: `DRQn` follows the request line again, and nothing else changes. When a gap ends in
reference-clock periods is left out (log 5). -/
def Obligations.DrqFollowsTheGrantAfterTheGap : Prop :=
  ∀ (s : State) (ch : ChanId),
    ∃ t, exec (.drqReassert ch) s = .next t ∧ t = s.setChan ch { s.chan ch with gap := false } ∧
      (t.chan ch).drqPin = decide (0 < (s.chan ch).grant)

/-! ## Events of lanes

The premises on `half`, `between`, `arrivalDue`, `checkDue`, `lockNotice` and `rxBits` say which event of one bit
clock is next; they are the model's own bookkeeping (logs 3, 4). -/

/-- A sync arrival away from a check point. In ARMING and HUNT it counts toward lock, from 1 anew unless it falls F
bit clocks after the last, and locks at K. In RUNNING it sends the lane to HUNT with MISALIGNED, GoodSyncs 1, its
frame abandoned, and with K = 1 the lane relocks at once, after LANE_LOST. In STOPPING it ends the stop early. In OFF
it is not taken (log 3). -/
def Obligations.SyncArrivalCountsOrMisaligns : Prop :=
  ∀ (s : State) (n : LaneId), (s.lane n).arrivalDue = true → (s.lane n).checkDue = false →
    (s.lane n).cfg.role = .follower →
    let l := s.lane n
    let good := if l.goodSyncs ≠ 0 ∧ l.lastSync = some (l.cfg.slots * l.cfg.width + l.cfg.gap)
      then l.goodSyncs + 1 else 1
    let counted := s.setLane n { l with goodSyncs := good, lastSync := some 0, arrivalDue := false }
    let lost := { s.setLane n { l with
        state := .hunt, lastCause := .misaligned, missedRun := 0, goodSyncs := 1, lastSync := some 0,
        arrivalDue := false, checkDue := false, between := false, lockNotice := none,
        txCell := .quiet, txBits := 0, rxCell := 0, rxBits := 0, rxTarget := .ignore, txPin := .hiZ } with
      notices := s.notices.post ⟨.laneLost, .lane n, some l.frameCount, 1⟩ }
    (l.state = .arming ∨ l.state = .hunt → good ≠ l.cfg.relock → exec (.syncArrival n) s = .next counted) ∧
    (l.state = .arming ∨ l.state = .hunt → good = l.cfg.relock →
      exec (.syncArrival n) s =
        .next (counted.lock n (if l.state = .arming then .locked else .relocked))) ∧
    (l.state = .running → l.cfg.relock ≠ 1 → exec (.syncArrival n) s = .next lost) ∧
    (l.state = .running → l.cfg.relock = 1 → exec (.syncArrival n) s = .next (lost.lock n .relocked)) ∧
    (l.state = .stopping →
      ∃ u, exec (.syncArrival n) s = .next (u.enterOff n) ∧ s.SameLanesBut u n ∧
        u = { s with lanes := u.lanes,
                     notices := s.notices.post ⟨.laneStopped, .lane n, some l.frameCount, 1⟩ } ∧
        u.lane n = { l with lastCause := .misaligned, arrivalDue := false }) ∧
    (l.state = .off → exec (.syncArrival n) s = .next s)

/-- Lock: RUNNING, MissedRun 0, and the lock notice and frame start at the opening of the marked frame. With SYNC_EARLY
off that is this edge: the frame start is taken at once, whatever the live bank and a pending swap make of it. With
SYNC_EARLY on it is the drive edge that opens the next position. That the lane is RUNNING in the last position meanwhile
is the model's reading (log 15). -/
def Obligations.LockTakesTheLaneToRunning : Prop :=
  ∀ (s : State) (n : LaneId) (k : LockKind),
    let l := s.lane n
    let t := s.lock n k
    let locked (position : Nat) : State :=
      s.setLane n { l with state := .running, missedRun := 0, lockNotice := some k, half := .sampled,
                           between := false, position := position }
    (t.lane n).state = .running ∧ (t.lane n).missedRun = 0 ∧ (t.lane n).cfg = l.cfg ∧
    s.SameLanesBut t n ∧
    (l.cfg.syncEarly = true → t = locked (l.cfg.slots * l.cfg.width + l.cfg.gap - 1)) ∧
    (l.cfg.syncEarly = false →
      t = (locked 0).frameStartSampled n ∧
      (t.lane n).frameCount = l.frameCount + 1 ∧ (t.lane n).position = 0 ∧ (t.lane n).lockNotice = none ∧
      ((s.smap n).swapPending = false → (s.smap n).liveBank[0].txKind ≠ .ring →
        (s.smap n).liveBank[0].mark = false →
        t = { s with lanes := t.lanes,
                     notices := s.notices.post ⟨match k with
                       | .locked => .laneLocked
                       | .relocked => .laneRelocked, .lane n, some (l.frameCount + 1), 0⟩ }))

/-- The check point of a follower. RUNNING: a sync found clears MissedRun, a miss within M counts, and either takes
the frame start, here with SYNC_EARLY off and at the next drive edge with it on; a miss beyond M sends the lane to
HUNT with MISSED. STOPPING: between frames the stop completes; within the frame the sync is not an arrival. -/
def Obligations.SyncCheckPointTakesOrMissesTheFrame : Prop :=
  ∀ (s : State) (n : LaneId), (s.lane n).checkDue = true → (s.lane n).rxBits ≠ (s.lane n).cfg.width →
    (s.lane n).cfg.role = .follower →
    let l := s.lane n
    let taken (missed : Nat) :=
      s.setLane n { l with checkDue := false, arrivalDue := false, missedRun := missed }
    (l.state = .running → l.arrivalDue = true →
      exec (.syncCheckPoint n) s =
        .next (if l.cfg.syncEarly then taken 0 else (taken 0).frameStartSampled n)) ∧
    (l.state = .running → l.arrivalDue = false → l.missedRun + 1 ≤ l.cfg.flywheel →
      exec (.syncCheckPoint n) s =
        .next (if l.cfg.syncEarly then taken (l.missedRun + 1)
          else (taken (l.missedRun + 1)).frameStartSampled n)) ∧
    (l.state = .running → l.arrivalDue = false → l.cfg.flywheel < l.missedRun + 1 → l.cfg.relock ≠ 0 →
      ∃ t, exec (.syncCheckPoint n) s = .next t ∧ s.SameLanesBut t n ∧
        t = { s with lanes := t.lanes,
                     notices := s.notices.post ⟨.laneLost, .lane n, some l.frameCount, 2⟩ } ∧
        (t.lane n).state = .hunt ∧ (t.lane n).lastCause = .missed ∧ (t.lane n).missedRun = 0 ∧
        (t.lane n).goodSyncs = 0 ∧ (t.lane n).lastSync = none ∧ (t.lane n).txPin = .hiZ ∧
        (t.lane n).frameCount = l.frameCount ∧ (t.lane n).cfg = l.cfg) ∧
    (l.state = .stopping → l.between = true →
      ∃ u, exec (.syncCheckPoint n) s = .next (u.enterOff n) ∧ s.SameLanesBut u n ∧
        u = { s with lanes := u.lanes,
                     notices := s.notices.post ⟨.laneStopped, .lane n, some l.frameCount, 0⟩ } ∧
        u.lane n = { l with checkDue := false, arrivalDue := false }) ∧
    (l.state = .stopping → l.between = false →
      exec (.syncCheckPoint n) s = .next (taken (if l.arrivalDue then 0 else l.missedRun)))

/-- A frame start in RUNNING, whichever edge takes it: FrameCount rises by one, wrapping, and Position is 0; then the
lock notice, if one is owed; then a pending exchange, with its seats and SWAP_DONE; then the slot start of slot 0
under the bank then live. FRAME_START is taken at the drive edge that closes a frame of a RUNNING master, or of a
RUNNING follower with SYNC_EARLY on. A frame start taken at a sampling edge also drives bit 0 of slot 0 from there, and
places the bit sampled at that edge. That a swap taken between a SYNC_EARLY lock and this frame start is exchanged here
is the model's choice (log 27), and so is it that TxBits stays 0 for QUIET (log 14). -/
def Obligations.FrameStartIsTakenAndOrdersItsParts : Prop :=
  (∀ (s : State) (n : LaneId),
     let l := s.lane n
     let frame := l.frameCount + 1
     let pending := (s.smap n).swapPending
     let locked := match l.lockNotice with
       | none => s.notices
       | some .locked => s.notices.post ⟨.laneLocked, .lane n, some frame, 0⟩
       | some .relocked => s.notices.post ⟨.laneRelocked, .lane n, some frame, 0⟩
     ∃ u, s.frameStart n = u.slotStart n 0 ∧ s.SameLanesBut u n ∧ s.SameMapsBut u n ∧
       u = { s with lanes := u.lanes, maps := u.maps, rings := u.rings,
                    notices := if pending then locked.post ⟨.swapDone, .lane n, some frame, 0⟩ else locked } ∧
       u.lane n = { l with frameCount := frame, position := 0, between := false, lockNotice := none,
                           half := .opening } ∧
       (pending = false → u.smap n = s.smap n ∧ u.rings = s.rings) ∧
       (pending = true →
         u.smap n = { s.smap n with live := (s.smap n).live.other, swapPending := false } ∧
         ∀ r side, (s.ring r).SameButSeats (u.ring r) ∧
           (u.ring r).seat side =
             if (s.ring r).seat side = .reserved n ∨ (s.ring r).seat side = .held (.lane n) then
               if bankNames (s.smap n).editBank l.cfg.slots side r then .held (.lane n) else .free
             else (s.ring r).seat side)) ∧
  (∀ (s : State) (n : LaneId), (s.lane n).state = .running →
     (s.lane n).cfg.role = .master ∨ (s.lane n).cfg.syncEarly = true →
     (s.lane n).half = .sampled → (s.lane n).between = false → (s.lane n).arrivalDue = false →
     (s.lane n).checkDue = false → (s.lane n).rxBits ≠ (s.lane n).cfg.width →
     (s.lane n).position + 1 = (s.lane n).cfg.slots * (s.lane n).cfg.width + (s.lane n).cfg.gap →
     exec (.frameStart n) s = .next (s.frameStart n)) ∧
  (∀ (s : State) (n : LaneId), 0 < (s.lane n).cfg.slots * (s.lane n).cfg.width →
     let u := s.frameStart n
     let l := u.lane n
     let bit := match (s.lane n).cfg.bitOrder with
       | .msbFirst => (s.lane n).cfg.width - 1
       | .lsbFirst => 0
     s.frameStartSampled n = u.setLane n { l with
       half := .sampled, rxBits := 1, rxCell := if (s.lane n).rxSample then 1#32 <<< bit else 0,
       txPin := match l.txCell with
         | .quiet => .hiZ
         | .cell c => if c.getLsbD bit then .high else .low,
       txBits := match l.txCell with
         | .quiet => 0
         | .cell _ => 1 })

/-- A slot start, of slot 0 within a frame start as of any other slot: SLOT_MARK first, then the transmit half by
TxKind, then the receive target; the registers are loaded and their counts 0. SLOT_START is taken where a drive edge
opens a slot after slot 0. -/
def Obligations.SlotStartActsOnItsEntry : Prop :=
  (∀ (s : State) (n : LaneId) (i : Fin 32),
     let l := s.lane n
     let e := (s.smap n).liveBank[i]
     let u := { s with
       notices := if e.mark then
           s.notices.post ⟨.slotMark, .lane n, some l.frameCount, BitVec.ofNat 8 i.val⟩
         else s.notices }
     let loaded (p : State × TxCell) : State :=
       p.1.setLane n { l with txCell := p.2, txBits := 0, rxCell := 0, rxBits := 0,
                              rxTarget := if e.rxKind = .ring then .ring e.rxRing else .ignore }
     s.slotStart n i.val = match e.txKind with
       | .quiet => loaded (u, .quiet)
       | .const => loaded (u, .cell (BitVec.ofNat 32 (e.const.toNat % 2 ^ l.cfg.width)))
       | .ring => loaded ((u.removeForLane e.txRing n).1, .cell (u.removeForLane e.txRing n).2)) ∧
  (∀ (s : State) (n : LaneId), (s.lane n).state = .running ∨ (s.lane n).state = .stopping →
     (s.lane n).half = .sampled → (s.lane n).between = false → (s.lane n).arrivalDue = false →
     (s.lane n).checkDue = false → (s.lane n).rxBits ≠ (s.lane n).cfg.width →
     (s.lane n).position + 1 < (s.lane n).cfg.slots * (s.lane n).cfg.width →
     ((s.lane n).position + 1) % (s.lane n).cfg.width = 0 →
     exec (.slotStart n) s = .next
       ((s.setLane n { s.lane n with position := (s.lane n).position + 1, half := .opening }).slotStart n
         (((s.lane n).position + 1) / (s.lane n).cfg.width)))

/-- A slot end hands the assembled cell to the ring of the receive target as an append claim of the lane, or
discards it; the slot registers are emptied, the transmit pin holding its bit to the close of the position (log 14). -/
def Obligations.SlotEndHandsOnTheCell : Prop :=
  ∀ (s : State) (n : LaneId), (s.lane n).state = .running ∨ (s.lane n).state = .stopping →
    (s.lane n).rxBits = (s.lane n).cfg.width →
    let l := s.lane n
    let empty := { l with txCell := .quiet, txBits := 0, rxCell := 0, rxBits := 0, rxTarget := .ignore }
    (l.rxTarget = .ignore → exec (.slotEnd n) s = .next (s.setLane n empty)) ∧
    ∀ r, l.rxTarget = .ring r →
      exec (.slotEnd n) s = .next ((s.appendClaim r l.rxCell (.lane n)).1.setLane n empty)

/-- The end of a stopping frame posts LANE_STOPPED with its frame, COMPLETE, and the lane enters OFF. That it does so
also in the last position in which a SYNC_EARLY lane has locked and then taken a LANE_STOP, without the frame start and
the lock notice still owed, is the model's choice (log 15). -/
def Obligations.EndOfFrameCompletesTheStop : Prop :=
  ∀ (s : State) (n : LaneId), (s.lane n).state = .stopping →
    (s.lane n).half = .sampled → (s.lane n).between = false → (s.lane n).arrivalDue = false →
    (s.lane n).checkDue = false → (s.lane n).rxBits ≠ (s.lane n).cfg.width →
    (s.lane n).position + 1 = (s.lane n).cfg.slots * (s.lane n).cfg.width + (s.lane n).cfg.gap →
    exec (.endOfFrame n) s = .next
      ({ s with notices :=
          s.notices.post ⟨.laneStopped, .lane n, some (s.lane n).frameCount, 0⟩ }.enterOff n)

/-- The expiry of a follower's running clock watch, by the lane's state. That it drops a lock notice still owed
(log 15), and that after a found check point with SYNC_EARLY on it comes before the frame start (log 31), is the model's
choice. -/
def Obligations.ClockWatchExpiryActsByState : Prop :=
  ∀ (s : State) (n : LaneId), (s.lane n).watchRunning = true → (s.lane n).cfg.role = .follower →
    let l := s.lane n
    (l.state = .arming ∨ l.state = .hunt →
      exec (.clockWatchExpiry n) s =
        .next (s.setLane n { l with watchRunning := false, goodSyncs := 0, lastSync := none })) ∧
    (l.state = .running → l.cfg.relock ≠ 0 →
      ∃ t, exec (.clockWatchExpiry n) s = .next t ∧ s.SameLanesBut t n ∧
        t = { s with lanes := t.lanes,
                     notices := s.notices.post ⟨.laneLost, .lane n, some l.frameCount, 3⟩ } ∧
        (t.lane n).state = .hunt ∧ (t.lane n).lastCause = .clockLost ∧ (t.lane n).watchRunning = false ∧
        (t.lane n).goodSyncs = 0 ∧ (t.lane n).lastSync = none ∧ (t.lane n).missedRun = 0 ∧
        (t.lane n).txPin = .hiZ ∧ (t.lane n).rxTarget = .ignore ∧ (t.lane n).frameCount = l.frameCount ∧
        (t.lane n).syncSample = l.syncSample ∧ (t.lane n).cfg = l.cfg) ∧
    (l.state = .stopping →
      ∃ u, exec (.clockWatchExpiry n) s = .next (u.enterOff n) ∧ s.SameLanesBut u n ∧
        u = { s with lanes := u.lanes,
                     notices := s.notices.post ⟨.laneStopped, .lane n, some l.frameCount, 1⟩ } ∧
        u.lane n = { l with watchRunning := false, lastCause := .clockLost })

/-- A drive edge. In OFF it changes nothing; in ARMING and HUNT it restarts the clock watch. In RUNNING and STOPPING,
where no event that it opens is still to be taken: Position advances, or stays where a slot or frame start has opened
it; in a slot the transmit pin takes the next bit of the cell in the order of BIT_ORDER, or is high impedance for
QUIET; in the gap it is high impedance. A follower's watch restarts. A master's bit clock takes its drive level, and
its sync is high for the length of its form from position 0 on, or with SYNC_EARLY on from position F − 1 of a RUNNING
frame on (log 23). The edge that closes a frame of a RUNNING follower with SYNC_EARLY off leaves it between frames, the
pin held (log 28). The half bit clock as a step of its own is the model's (log 4), and so is it that TxBits stays as it
is in a QUIET slot (log 14). -/
def Obligations.DriveEdgePutsTheNextBitOnThePin : Prop :=
  ∀ (s : State) (n : LaneId),
    let l := s.lane n
    let framed := l.cfg.slots * l.cfg.width
    let frame := framed + l.cfg.gap
    let owesNothing := l.arrivalDue = false ∧ l.checkDue = false ∧ l.rxBits ≠ l.cfg.width
    (l.state = .off → exec (.driveEdge n) s = .next s) ∧
    (l.state = .arming ∨ l.state = .hunt → owesNothing →
      exec (.driveEdge n) s = .next (s.setLane n { l with watchRunning := true })) ∧
    (l.state = .running ∨ l.state = .stopping → l.between = false →
      l.half = .opening ∨ (l.half = .sampled ∧ owesNothing ∧ l.position + 1 < frame ∧
        ¬(l.position + 1 < framed ∧ (l.position + 1) % l.cfg.width = 0)) →
      let position := if l.half = .opening then l.position else l.position + 1
      let bit := match l.cfg.bitOrder with
        | .msbFirst => l.cfg.width - 1 - l.txBits
        | .lsbFirst => l.txBits
      let syncBegins := (l.cfg.syncEarly = false ∧ position = 0) ∨
        (l.cfg.syncEarly = true ∧ l.state = .running ∧ position + 1 = frame)
      let syncLen := match l.cfg.syncForm with
        | .pulse => 1
        | .slot => if frame = l.cfg.width then l.cfg.width - 1 else l.cfg.width
      let left := if syncBegins then syncLen else l.syncLeft
      let driven := { l with
        position := position, half := .driven,
        txPin := if framed ≤ position then .hiZ else match l.txCell with
          | .quiet => .hiZ
          | .cell c => if c.getLsbD bit then .high else .low,
        txBits := if framed ≤ position then l.txBits else match l.txCell with
          | .quiet => l.txBits
          | .cell _ => l.txBits + 1 }
      exec (.driveEdge n) s = .next (s.setLane n (match l.cfg.role with
        | .follower => { driven with watchRunning := true }
        | .master => { driven with
            bclkPin := match l.cfg.clockEdge with
              | .driveRise => .high
              | .driveFall => .low,
            fsyncPin := if 0 < left then .high else .low,
            syncLeft := left - 1 }))) ∧
    (l.state = .running → l.cfg.role = .follower → l.cfg.syncEarly = false → l.half = .sampled →
      l.between = false → owesNothing → l.position + 1 = frame →
      exec (.driveEdge n) s = .next (s.setLane n { l with
        position := 0, between := true, half := .driven, watchRunning := true }))

/-- A sampling edge. In a slot of a RUNNING or STOPPING lane the level of the receive pin goes into RxCell at the
bit that BIT_ORDER gives, and in the gap and between frames it is discarded. A follower finds an arrival where the sync
pin is high after having been low, and keeps the level; the edge is a check point in position F − 1 with SYNC_EARLY on,
and between frames. In OFF both pins are ignored. -/
def Obligations.SamplingEdgePlacesTheBitAndFindsSync : Prop :=
  ∀ (s : State) (n : LaneId) (rx sync : Bool),
    let l := s.lane n
    let framed := l.cfg.slots * l.cfg.width
    (l.state = .off → exec (.samplingEdge n rx sync) s = .next s) ∧
    (l.state = .arming ∨ l.state = .hunt → l.arrivalDue = false → l.checkDue = false → l.rxBits ≠ l.cfg.width →
      exec (.samplingEdge n rx sync) s = .next (s.setLane n { l with
        arrivalDue := sync && !l.syncSample, syncSample := sync, watchRunning := true, rxSample := rx,
        lastSync := l.lastSync.map (· + 1) })) ∧
    (l.state = .running ∨ l.state = .stopping → l.half = .driven → l.between = false →
      let bit := match l.cfg.bitOrder with
        | .msbFirst => l.cfg.width - 1 - l.rxBits
        | .lsbFirst => l.rxBits
      let sampled := { l with
        half := .sampled, rxSample := rx,
        rxBits := if l.position < framed then l.rxBits + 1 else l.rxBits,
        rxCell := if l.position < framed ∧ rx = true then l.rxCell ||| (1#32 <<< bit) else l.rxCell }
      exec (.samplingEdge n rx sync) s = .next (s.setLane n (match l.cfg.role with
        | .follower => { sampled with
            arrivalDue := sync && !l.syncSample, syncSample := sync, watchRunning := true,
            checkDue := l.cfg.syncEarly && decide (l.position + 1 = framed + l.cfg.gap) }
        | .master => { sampled with
            bclkPin := match l.cfg.clockEdge with
              | .driveRise => .low
              | .driveFall => .high }))) ∧
    (l.state = .running ∨ l.state = .stopping → l.half = .driven → l.between = true → l.cfg.role = .follower →
      exec (.samplingEdge n rx sync) s = .next (s.setLane n { l with
        half := .sampled, rxSample := rx, arrivalDue := sync && !l.syncSample, syncSample := sync,
        watchRunning := true, checkDue := true }))

/-! ## Invariants -/

/-- Every step keeps buffer memory in its canonical form. -/
def Obligations.StepKeepsMemoryCanonical : Prop :=
  ∀ s t : State, s.MemoryOk → step s = .next t → t.MemoryOk

/-- Every step keeps the notice queue within 32 records, Lost above 0 only on a full queue, and NOTICE_LOST and
STARTUP_DONE enabled. -/
def Obligations.StepKeepsTheNoticeQueueBounded : Prop :=
  ∀ s t : State, s.notices.Ok → s.notices.MaskOk → step s = .next t → t.notices.Ok ∧ t.notices.MaskOk

/-- Every step keeps every block at its reset values while the window is in STARTUP, and the clear address in step
with the periods. -/
def Obligations.StepKeepsStartupQuiet : Prop :=
  ∀ s t : State, s.QuietInStartup → s.ClearingOk → step s = .next t → t.QuietInStartup ∧ t.ClearingOk

/-- Every step keeps the ring records well formed, and the regions of OPEN rings apart. -/
def Obligations.StepKeepsRingsWellFormed : Prop :=
  ∀ s t : State, s.RingsOk → s.RegionsDisjoint → step s = .next t → t.RingsOk ∧ t.RegionsDisjoint

/-- Every step keeps the lane records in step with their framing. -/
def Obligations.StepKeepsLanesInStep : Prop :=
  ∀ s t : State, s.LanesOk → step s = .next t → t.LanesOk

/-- Every step keeps all the invariants together: among them that seats, attachment records, reservations, live banks
and the targets of slots in flight agree. Under them a channel with a grant of G has G cells to read, or room for G. -/
def Obligations.StepKeepsTheInvariant : Prop :=
  (∀ s t : State, s.Inv → step s = .next t → t.Inv) ∧
  (∀ (s : State) (ch : ChanId) (a : Attachment), s.Inv → 0 < (s.chan ch).grant → (s.chan ch).attach = some a →
     (s.ring a.ring).state = .opened ∧
     (a.side = .consumer → (s.chan ch).grant ≤ (s.ring a.ring).level) ∧
     (a.side = .producer → (s.chan ch).grant + (s.ring a.ring).level ≤ (s.ring a.ring).cap))

/-- The invariants hold right after reset. -/
def Obligations.InvariantHoldsAtReset : Prop := State.reset.Inv
end

