-- ==== Sys2Proof/Laws/State.lean ====
section
/-! SUPPORT. One lemma for each update and each thing read after it: later proofs unfold no record update. -/

namespace Sys2Proof.Machine

/-! ## setRing -/

@[simp] theorem State.ring_setRing_self (s : State) (i : RingId) (x : Ring) : (s.setRing i x).ring i = x := by
  simp [State.ring, State.setRing]

@[simp] theorem State.ring_setRing_of_ne (s : State) (i j : RingId) (x : Ring) (h : j ≠ i) : (s.setRing i x).ring j = s.ring j := by
  have h2 : i.val ≠ j.val := fun e => h (Fin.ext e.symm)
  simp [State.ring, State.setRing, h2]

theorem State.ring_setRing (s : State) (i j : RingId) (x : Ring) :
    (s.setRing i x).ring j = if j = i then x else s.ring j := by
  by_cases h : j = i
  · subst h; simp
  · simp [h]

@[simp] theorem State.setRing_ring (s : State) (i : RingId) : s.setRing i (s.ring i) = s := by
  simp [State.ring, State.setRing]

@[simp] theorem State.setRing_setRing (s : State) (i : RingId) (x y : Ring) : (s.setRing i x).setRing i y = s.setRing i y := by
  simp [State.setRing]

@[simp] theorem State.lane_setRing (s : State) (i : RingId) (x : Ring) (j : LaneId) : (s.setRing i x).lane j = s.lane j := rfl
@[simp] theorem State.lanes_setRing (s : State) (i : RingId) (x : Ring) : (s.setRing i x).lanes = s.lanes := rfl
@[simp] theorem State.smap_setRing (s : State) (i : RingId) (x : Ring) (j : LaneId) : (s.setRing i x).smap j = s.smap j := rfl
@[simp] theorem State.maps_setRing (s : State) (i : RingId) (x : Ring) : (s.setRing i x).maps = s.maps := rfl
@[simp] theorem State.chan_setRing (s : State) (i : RingId) (x : Ring) (j : ChanId) : (s.setRing i x).chan j = s.chan j := rfl
@[simp] theorem State.chans_setRing (s : State) (i : RingId) (x : Ring) : (s.setRing i x).chans = s.chans := rfl
@[simp] theorem State.pending_setRing (s : State) (i : RingId) (x : Ring) : (s.setRing i x).pending = s.pending := rfl
@[simp] theorem State.freeCount_setRing (s : State) (i : RingId) (x : Ring) : (s.setRing i x).freeCount = s.freeCount := rfl
@[simp] theorem State.readData_setRing (s : State) (i : RingId) (x : Ring) : (s.setRing i x).readData = s.readData := rfl
@[simp] theorem State.resetLow_setRing (s : State) (i : RingId) (x : Ring) : (s.setRing i x).resetLow = s.resetLow := rfl
@[simp] theorem State.clearAddr_setRing (s : State) (i : RingId) (x : Ring) : (s.setRing i x).clearAddr = s.clearAddr := rfl
@[simp] theorem State.period_setRing (s : State) (i : RingId) (x : Ring) : (s.setRing i x).period = s.period := rfl
@[simp] theorem State.win_setRing (s : State) (i : RingId) (x : Ring) : (s.setRing i x).win = s.win := rfl
@[simp] theorem State.notices_setRing (s : State) (i : RingId) (x : Ring) : (s.setRing i x).notices = s.notices := rfl
@[simp] theorem State.mem_setRing (s : State) (i : RingId) (x : Ring) : (s.setRing i x).mem = s.mem := rfl
@[simp] theorem State.pr_setRing (s : State) (i : RingId) (x : Ring) : (s.setRing i x).pr = s.pr := rfl
@[simp] theorem State.pw_setRing (s : State) (i : RingId) (x : Ring) : (s.setRing i x).pw = s.pw := rfl

/-! ## setLane -/

@[simp] theorem State.lane_setLane_self (s : State) (i : LaneId) (x : Lane) : (s.setLane i x).lane i = x := by
  simp [State.lane, State.setLane]

@[simp] theorem State.lane_setLane_of_ne (s : State) (i j : LaneId) (x : Lane) (h : j ≠ i) : (s.setLane i x).lane j = s.lane j := by
  have h2 : i.val ≠ j.val := fun e => h (Fin.ext e.symm)
  simp [State.lane, State.setLane, h2]

theorem State.lane_setLane (s : State) (i j : LaneId) (x : Lane) :
    (s.setLane i x).lane j = if j = i then x else s.lane j := by
  by_cases h : j = i
  · subst h; simp
  · simp [h]

@[simp] theorem State.setLane_lane (s : State) (i : LaneId) : s.setLane i (s.lane i) = s := by
  simp [State.lane, State.setLane]

@[simp] theorem State.setLane_setLane (s : State) (i : LaneId) (x y : Lane) : (s.setLane i x).setLane i y = s.setLane i y := by
  simp [State.setLane]

@[simp] theorem State.ring_setLane (s : State) (i : LaneId) (x : Lane) (j : RingId) : (s.setLane i x).ring j = s.ring j := rfl
@[simp] theorem State.rings_setLane (s : State) (i : LaneId) (x : Lane) : (s.setLane i x).rings = s.rings := rfl
@[simp] theorem State.smap_setLane (s : State) (i : LaneId) (x : Lane) (j : LaneId) : (s.setLane i x).smap j = s.smap j := rfl
@[simp] theorem State.maps_setLane (s : State) (i : LaneId) (x : Lane) : (s.setLane i x).maps = s.maps := rfl
@[simp] theorem State.chan_setLane (s : State) (i : LaneId) (x : Lane) (j : ChanId) : (s.setLane i x).chan j = s.chan j := rfl
@[simp] theorem State.chans_setLane (s : State) (i : LaneId) (x : Lane) : (s.setLane i x).chans = s.chans := rfl
@[simp] theorem State.pending_setLane (s : State) (i : LaneId) (x : Lane) : (s.setLane i x).pending = s.pending := rfl
@[simp] theorem State.freeCount_setLane (s : State) (i : LaneId) (x : Lane) : (s.setLane i x).freeCount = s.freeCount := rfl
@[simp] theorem State.readData_setLane (s : State) (i : LaneId) (x : Lane) : (s.setLane i x).readData = s.readData := rfl
@[simp] theorem State.resetLow_setLane (s : State) (i : LaneId) (x : Lane) : (s.setLane i x).resetLow = s.resetLow := rfl
@[simp] theorem State.clearAddr_setLane (s : State) (i : LaneId) (x : Lane) : (s.setLane i x).clearAddr = s.clearAddr := rfl
@[simp] theorem State.period_setLane (s : State) (i : LaneId) (x : Lane) : (s.setLane i x).period = s.period := rfl
@[simp] theorem State.win_setLane (s : State) (i : LaneId) (x : Lane) : (s.setLane i x).win = s.win := rfl
@[simp] theorem State.notices_setLane (s : State) (i : LaneId) (x : Lane) : (s.setLane i x).notices = s.notices := rfl
@[simp] theorem State.mem_setLane (s : State) (i : LaneId) (x : Lane) : (s.setLane i x).mem = s.mem := rfl
@[simp] theorem State.pr_setLane (s : State) (i : LaneId) (x : Lane) : (s.setLane i x).pr = s.pr := rfl
@[simp] theorem State.pw_setLane (s : State) (i : LaneId) (x : Lane) : (s.setLane i x).pw = s.pw := rfl

/-! ## setSmap -/

@[simp] theorem State.smap_setSmap_self (s : State) (i : LaneId) (x : SlotMap) : (s.setSmap i x).smap i = x := by
  simp [State.smap, State.setSmap]

@[simp] theorem State.smap_setSmap_of_ne (s : State) (i j : LaneId) (x : SlotMap) (h : j ≠ i) : (s.setSmap i x).smap j = s.smap j := by
  have h2 : i.val ≠ j.val := fun e => h (Fin.ext e.symm)
  simp [State.smap, State.setSmap, h2]

theorem State.smap_setSmap (s : State) (i j : LaneId) (x : SlotMap) :
    (s.setSmap i x).smap j = if j = i then x else s.smap j := by
  by_cases h : j = i
  · subst h; simp
  · simp [h]

@[simp] theorem State.setSmap_smap (s : State) (i : LaneId) : s.setSmap i (s.smap i) = s := by
  simp [State.smap, State.setSmap]

@[simp] theorem State.setSmap_setSmap (s : State) (i : LaneId) (x y : SlotMap) : (s.setSmap i x).setSmap i y = s.setSmap i y := by
  simp [State.setSmap]

@[simp] theorem State.ring_setSmap (s : State) (i : LaneId) (x : SlotMap) (j : RingId) : (s.setSmap i x).ring j = s.ring j := rfl
@[simp] theorem State.rings_setSmap (s : State) (i : LaneId) (x : SlotMap) : (s.setSmap i x).rings = s.rings := rfl
@[simp] theorem State.lane_setSmap (s : State) (i : LaneId) (x : SlotMap) (j : LaneId) : (s.setSmap i x).lane j = s.lane j := rfl
@[simp] theorem State.lanes_setSmap (s : State) (i : LaneId) (x : SlotMap) : (s.setSmap i x).lanes = s.lanes := rfl
@[simp] theorem State.chan_setSmap (s : State) (i : LaneId) (x : SlotMap) (j : ChanId) : (s.setSmap i x).chan j = s.chan j := rfl
@[simp] theorem State.chans_setSmap (s : State) (i : LaneId) (x : SlotMap) : (s.setSmap i x).chans = s.chans := rfl
@[simp] theorem State.pending_setSmap (s : State) (i : LaneId) (x : SlotMap) : (s.setSmap i x).pending = s.pending := rfl
@[simp] theorem State.freeCount_setSmap (s : State) (i : LaneId) (x : SlotMap) : (s.setSmap i x).freeCount = s.freeCount := rfl
@[simp] theorem State.readData_setSmap (s : State) (i : LaneId) (x : SlotMap) : (s.setSmap i x).readData = s.readData := rfl
@[simp] theorem State.resetLow_setSmap (s : State) (i : LaneId) (x : SlotMap) : (s.setSmap i x).resetLow = s.resetLow := rfl
@[simp] theorem State.clearAddr_setSmap (s : State) (i : LaneId) (x : SlotMap) : (s.setSmap i x).clearAddr = s.clearAddr := rfl
@[simp] theorem State.period_setSmap (s : State) (i : LaneId) (x : SlotMap) : (s.setSmap i x).period = s.period := rfl
@[simp] theorem State.win_setSmap (s : State) (i : LaneId) (x : SlotMap) : (s.setSmap i x).win = s.win := rfl
@[simp] theorem State.notices_setSmap (s : State) (i : LaneId) (x : SlotMap) : (s.setSmap i x).notices = s.notices := rfl
@[simp] theorem State.mem_setSmap (s : State) (i : LaneId) (x : SlotMap) : (s.setSmap i x).mem = s.mem := rfl
@[simp] theorem State.pr_setSmap (s : State) (i : LaneId) (x : SlotMap) : (s.setSmap i x).pr = s.pr := rfl
@[simp] theorem State.pw_setSmap (s : State) (i : LaneId) (x : SlotMap) : (s.setSmap i x).pw = s.pw := rfl

/-! ## setChan -/

@[simp] theorem State.chan_setChan_self (s : State) (i : ChanId) (x : Channel) : (s.setChan i x).chan i = x := by
  simp [State.chan, State.setChan]

@[simp] theorem State.chan_setChan_of_ne (s : State) (i j : ChanId) (x : Channel) (h : j ≠ i) : (s.setChan i x).chan j = s.chan j := by
  have h2 : i.val ≠ j.val := fun e => h (Fin.ext e.symm)
  simp [State.chan, State.setChan, h2]

theorem State.chan_setChan (s : State) (i j : ChanId) (x : Channel) :
    (s.setChan i x).chan j = if j = i then x else s.chan j := by
  by_cases h : j = i
  · subst h; simp
  · simp [h]

@[simp] theorem State.setChan_chan (s : State) (i : ChanId) : s.setChan i (s.chan i) = s := by
  simp [State.chan, State.setChan]

@[simp] theorem State.setChan_setChan (s : State) (i : ChanId) (x y : Channel) : (s.setChan i x).setChan i y = s.setChan i y := by
  simp [State.setChan]

@[simp] theorem State.ring_setChan (s : State) (i : ChanId) (x : Channel) (j : RingId) : (s.setChan i x).ring j = s.ring j := rfl
@[simp] theorem State.rings_setChan (s : State) (i : ChanId) (x : Channel) : (s.setChan i x).rings = s.rings := rfl
@[simp] theorem State.lane_setChan (s : State) (i : ChanId) (x : Channel) (j : LaneId) : (s.setChan i x).lane j = s.lane j := rfl
@[simp] theorem State.lanes_setChan (s : State) (i : ChanId) (x : Channel) : (s.setChan i x).lanes = s.lanes := rfl
@[simp] theorem State.smap_setChan (s : State) (i : ChanId) (x : Channel) (j : LaneId) : (s.setChan i x).smap j = s.smap j := rfl
@[simp] theorem State.maps_setChan (s : State) (i : ChanId) (x : Channel) : (s.setChan i x).maps = s.maps := rfl
@[simp] theorem State.pending_setChan (s : State) (i : ChanId) (x : Channel) : (s.setChan i x).pending = s.pending := rfl
@[simp] theorem State.freeCount_setChan (s : State) (i : ChanId) (x : Channel) : (s.setChan i x).freeCount = s.freeCount := rfl
@[simp] theorem State.readData_setChan (s : State) (i : ChanId) (x : Channel) : (s.setChan i x).readData = s.readData := rfl
@[simp] theorem State.resetLow_setChan (s : State) (i : ChanId) (x : Channel) : (s.setChan i x).resetLow = s.resetLow := rfl
@[simp] theorem State.clearAddr_setChan (s : State) (i : ChanId) (x : Channel) : (s.setChan i x).clearAddr = s.clearAddr := rfl
@[simp] theorem State.period_setChan (s : State) (i : ChanId) (x : Channel) : (s.setChan i x).period = s.period := rfl
@[simp] theorem State.win_setChan (s : State) (i : ChanId) (x : Channel) : (s.setChan i x).win = s.win := rfl
@[simp] theorem State.notices_setChan (s : State) (i : ChanId) (x : Channel) : (s.setChan i x).notices = s.notices := rfl
@[simp] theorem State.mem_setChan (s : State) (i : ChanId) (x : Channel) : (s.setChan i x).mem = s.mem := rfl
@[simp] theorem State.pr_setChan (s : State) (i : ChanId) (x : Channel) : (s.setChan i x).pr = s.pr := rfl
@[simp] theorem State.pw_setChan (s : State) (i : ChanId) (x : Channel) : (s.setChan i x).pw = s.pw := rfl

/-! ## mapRings -/

@[simp] theorem State.ring_mapRings (s : State) (f : RingId → Ring → Ring) (r : RingId) :
    (s.mapRings f).ring r = f r (s.ring r) := by
  simp [State.ring, State.mapRings]

@[simp] theorem State.lane_mapRings (s : State) (f : RingId → Ring → Ring) (j : LaneId) : (s.mapRings f).lane j = s.lane j := rfl
@[simp] theorem State.lanes_mapRings (s : State) (f : RingId → Ring → Ring) : (s.mapRings f).lanes = s.lanes := rfl
@[simp] theorem State.smap_mapRings (s : State) (f : RingId → Ring → Ring) (j : LaneId) : (s.mapRings f).smap j = s.smap j := rfl
@[simp] theorem State.maps_mapRings (s : State) (f : RingId → Ring → Ring) : (s.mapRings f).maps = s.maps := rfl
@[simp] theorem State.chan_mapRings (s : State) (f : RingId → Ring → Ring) (j : ChanId) : (s.mapRings f).chan j = s.chan j := rfl
@[simp] theorem State.chans_mapRings (s : State) (f : RingId → Ring → Ring) : (s.mapRings f).chans = s.chans := rfl
@[simp] theorem State.pending_mapRings (s : State) (f : RingId → Ring → Ring) : (s.mapRings f).pending = s.pending := rfl
@[simp] theorem State.freeCount_mapRings (s : State) (f : RingId → Ring → Ring) : (s.mapRings f).freeCount = s.freeCount := rfl
@[simp] theorem State.readData_mapRings (s : State) (f : RingId → Ring → Ring) : (s.mapRings f).readData = s.readData := rfl
@[simp] theorem State.resetLow_mapRings (s : State) (f : RingId → Ring → Ring) : (s.mapRings f).resetLow = s.resetLow := rfl
@[simp] theorem State.clearAddr_mapRings (s : State) (f : RingId → Ring → Ring) : (s.mapRings f).clearAddr = s.clearAddr := rfl
@[simp] theorem State.period_mapRings (s : State) (f : RingId → Ring → Ring) : (s.mapRings f).period = s.period := rfl
@[simp] theorem State.win_mapRings (s : State) (f : RingId → Ring → Ring) : (s.mapRings f).win = s.win := rfl
@[simp] theorem State.notices_mapRings (s : State) (f : RingId → Ring → Ring) : (s.mapRings f).notices = s.notices := rfl
@[simp] theorem State.mem_mapRings (s : State) (f : RingId → Ring → Ring) : (s.mapRings f).mem = s.mem := rfl
@[simp] theorem State.pr_mapRings (s : State) (f : RingId → Ring → Ring) : (s.mapRings f).pr = s.pr := rfl
@[simp] theorem State.pw_mapRings (s : State) (f : RingId → Ring → Ring) : (s.mapRings f).pw = s.pw := rfl

/-! ## post -/

@[simp] theorem State.ring_post (s : State) (x : Notice) (j : RingId) : (s.post x).ring j = s.ring j := rfl
@[simp] theorem State.rings_post (s : State) (x : Notice) : (s.post x).rings = s.rings := rfl
@[simp] theorem State.lane_post (s : State) (x : Notice) (j : LaneId) : (s.post x).lane j = s.lane j := rfl
@[simp] theorem State.lanes_post (s : State) (x : Notice) : (s.post x).lanes = s.lanes := rfl
@[simp] theorem State.smap_post (s : State) (x : Notice) (j : LaneId) : (s.post x).smap j = s.smap j := rfl
@[simp] theorem State.maps_post (s : State) (x : Notice) : (s.post x).maps = s.maps := rfl
@[simp] theorem State.chan_post (s : State) (x : Notice) (j : ChanId) : (s.post x).chan j = s.chan j := rfl
@[simp] theorem State.chans_post (s : State) (x : Notice) : (s.post x).chans = s.chans := rfl
@[simp] theorem State.pending_post (s : State) (x : Notice) : (s.post x).pending = s.pending := rfl
@[simp] theorem State.freeCount_post (s : State) (x : Notice) : (s.post x).freeCount = s.freeCount := rfl
@[simp] theorem State.readData_post (s : State) (x : Notice) : (s.post x).readData = s.readData := rfl
@[simp] theorem State.resetLow_post (s : State) (x : Notice) : (s.post x).resetLow = s.resetLow := rfl
@[simp] theorem State.clearAddr_post (s : State) (x : Notice) : (s.post x).clearAddr = s.clearAddr := rfl
@[simp] theorem State.period_post (s : State) (x : Notice) : (s.post x).period = s.period := rfl
@[simp] theorem State.win_post (s : State) (x : Notice) : (s.post x).win = s.win := rfl
@[simp] theorem State.notices_post (s : State) (x : Notice) : (s.post x).notices = s.notices.post x := rfl
@[simp] theorem State.mem_post (s : State) (x : Notice) : (s.post x).mem = s.mem := rfl
@[simp] theorem State.pr_post (s : State) (x : Notice) : (s.post x).pr = s.pr := rfl
@[simp] theorem State.pw_post (s : State) (x : Notice) : (s.post x).pw = s.pw := rfl

/-! ## One field written -/

@[simp] theorem State.ring_with_pending (s : State) (x : List Instr) (j : RingId) : ({ s with pending := x } : State).ring j = s.ring j := rfl
@[simp] theorem State.lane_with_pending (s : State) (x : List Instr) (j : LaneId) : ({ s with pending := x } : State).lane j = s.lane j := rfl
@[simp] theorem State.smap_with_pending (s : State) (x : List Instr) (j : LaneId) : ({ s with pending := x } : State).smap j = s.smap j := rfl
@[simp] theorem State.chan_with_pending (s : State) (x : List Instr) (j : ChanId) : ({ s with pending := x } : State).chan j = s.chan j := rfl
@[simp] theorem State.ring_with_freeCount (s : State) (x : Nat) (j : RingId) : ({ s with freeCount := x } : State).ring j = s.ring j := rfl
@[simp] theorem State.lane_with_freeCount (s : State) (x : Nat) (j : LaneId) : ({ s with freeCount := x } : State).lane j = s.lane j := rfl
@[simp] theorem State.smap_with_freeCount (s : State) (x : Nat) (j : LaneId) : ({ s with freeCount := x } : State).smap j = s.smap j := rfl
@[simp] theorem State.chan_with_freeCount (s : State) (x : Nat) (j : ChanId) : ({ s with freeCount := x } : State).chan j = s.chan j := rfl
@[simp] theorem State.ring_with_readData (s : State) (x : Word) (j : RingId) : ({ s with readData := x } : State).ring j = s.ring j := rfl
@[simp] theorem State.lane_with_readData (s : State) (x : Word) (j : LaneId) : ({ s with readData := x } : State).lane j = s.lane j := rfl
@[simp] theorem State.smap_with_readData (s : State) (x : Word) (j : LaneId) : ({ s with readData := x } : State).smap j = s.smap j := rfl
@[simp] theorem State.chan_with_readData (s : State) (x : Word) (j : ChanId) : ({ s with readData := x } : State).chan j = s.chan j := rfl
@[simp] theorem State.ring_with_resetLow (s : State) (x : Bool) (j : RingId) : ({ s with resetLow := x } : State).ring j = s.ring j := rfl
@[simp] theorem State.lane_with_resetLow (s : State) (x : Bool) (j : LaneId) : ({ s with resetLow := x } : State).lane j = s.lane j := rfl
@[simp] theorem State.smap_with_resetLow (s : State) (x : Bool) (j : LaneId) : ({ s with resetLow := x } : State).smap j = s.smap j := rfl
@[simp] theorem State.chan_with_resetLow (s : State) (x : Bool) (j : ChanId) : ({ s with resetLow := x } : State).chan j = s.chan j := rfl
@[simp] theorem State.ring_with_clearAddr (s : State) (x : Nat) (j : RingId) : ({ s with clearAddr := x } : State).ring j = s.ring j := rfl
@[simp] theorem State.lane_with_clearAddr (s : State) (x : Nat) (j : LaneId) : ({ s with clearAddr := x } : State).lane j = s.lane j := rfl
@[simp] theorem State.smap_with_clearAddr (s : State) (x : Nat) (j : LaneId) : ({ s with clearAddr := x } : State).smap j = s.smap j := rfl
@[simp] theorem State.chan_with_clearAddr (s : State) (x : Nat) (j : ChanId) : ({ s with clearAddr := x } : State).chan j = s.chan j := rfl
@[simp] theorem State.ring_with_period (s : State) (x : Nat) (j : RingId) : ({ s with period := x } : State).ring j = s.ring j := rfl
@[simp] theorem State.lane_with_period (s : State) (x : Nat) (j : LaneId) : ({ s with period := x } : State).lane j = s.lane j := rfl
@[simp] theorem State.smap_with_period (s : State) (x : Nat) (j : LaneId) : ({ s with period := x } : State).smap j = s.smap j := rfl
@[simp] theorem State.chan_with_period (s : State) (x : Nat) (j : ChanId) : ({ s with period := x } : State).chan j = s.chan j := rfl
@[simp] theorem State.ring_with_win (s : State) (x : Window) (j : RingId) : ({ s with win := x } : State).ring j = s.ring j := rfl
@[simp] theorem State.lane_with_win (s : State) (x : Window) (j : LaneId) : ({ s with win := x } : State).lane j = s.lane j := rfl
@[simp] theorem State.smap_with_win (s : State) (x : Window) (j : LaneId) : ({ s with win := x } : State).smap j = s.smap j := rfl
@[simp] theorem State.chan_with_win (s : State) (x : Window) (j : ChanId) : ({ s with win := x } : State).chan j = s.chan j := rfl
@[simp] theorem State.ring_with_notices (s : State) (x : NoticeUnit) (j : RingId) : ({ s with notices := x } : State).ring j = s.ring j := rfl
@[simp] theorem State.lane_with_notices (s : State) (x : NoticeUnit) (j : LaneId) : ({ s with notices := x } : State).lane j = s.lane j := rfl
@[simp] theorem State.smap_with_notices (s : State) (x : NoticeUnit) (j : LaneId) : ({ s with notices := x } : State).smap j = s.smap j := rfl
@[simp] theorem State.chan_with_notices (s : State) (x : NoticeUnit) (j : ChanId) : ({ s with notices := x } : State).chan j = s.chan j := rfl
@[simp] theorem State.ring_with_mem (s : State) (x : List Host.Cell) (j : RingId) : ({ s with mem := x } : State).ring j = s.ring j := rfl
@[simp] theorem State.lane_with_mem (s : State) (x : List Host.Cell) (j : LaneId) : ({ s with mem := x } : State).lane j = s.lane j := rfl
@[simp] theorem State.smap_with_mem (s : State) (x : List Host.Cell) (j : LaneId) : ({ s with mem := x } : State).smap j = s.smap j := rfl
@[simp] theorem State.chan_with_mem (s : State) (x : List Host.Cell) (j : ChanId) : ({ s with mem := x } : State).chan j = s.chan j := rfl
@[simp] theorem State.ring_with_pr (s : State) (x : ReadPort) (j : RingId) : ({ s with pr := x } : State).ring j = s.ring j := rfl
@[simp] theorem State.lane_with_pr (s : State) (x : ReadPort) (j : LaneId) : ({ s with pr := x } : State).lane j = s.lane j := rfl
@[simp] theorem State.smap_with_pr (s : State) (x : ReadPort) (j : LaneId) : ({ s with pr := x } : State).smap j = s.smap j := rfl
@[simp] theorem State.chan_with_pr (s : State) (x : ReadPort) (j : ChanId) : ({ s with pr := x } : State).chan j = s.chan j := rfl
@[simp] theorem State.ring_with_pw (s : State) (x : WritePort) (j : RingId) : ({ s with pw := x } : State).ring j = s.ring j := rfl
@[simp] theorem State.lane_with_pw (s : State) (x : WritePort) (j : LaneId) : ({ s with pw := x } : State).lane j = s.lane j := rfl
@[simp] theorem State.smap_with_pw (s : State) (x : WritePort) (j : LaneId) : ({ s with pw := x } : State).smap j = s.smap j := rfl
@[simp] theorem State.chan_with_pw (s : State) (x : WritePort) (j : ChanId) : ({ s with pw := x } : State).chan j = s.chan j := rfl

/-! ## Equality of the indexed records -/

theorem State.rings_ext {s t : State} (h : ∀ r, t.ring r = s.ring r) : t.rings = s.rings :=
  Vector.ext fun i hi => h ⟨i, hi⟩

theorem State.lanes_ext {s t : State} (h : ∀ n, t.lane n = s.lane n) : t.lanes = s.lanes :=
  Vector.ext fun i hi => h ⟨i, hi⟩

theorem State.maps_ext {s t : State} (h : ∀ n, t.smap n = s.smap n) : t.maps = s.maps :=
  Vector.ext fun i hi => h ⟨i, hi⟩

theorem State.chans_ext {s t : State} (h : ∀ ch, t.chan ch = s.chan ch) : t.chans = s.chans :=
  Vector.ext fun i hi => h ⟨i, hi⟩

/-! ## Attachment records -/

@[simp] theorem AttachRecord.current_taken (r : RingId) (side : Side) :
    (AttachRecord.taken r side).current = some ⟨r, side⟩ := rfl
@[simp] theorem AttachRecord.current_released (x : AttachRecord) : x.released.current = none := rfl
@[simp] theorem AttachRecord.current_reset : AttachRecord.reset.current = none := rfl
@[simp] theorem ReadPort.current_record (p : ReadPort) : p.record.current = p.attach := rfl
@[simp] theorem WritePort.current_record (p : WritePort) : p.record.current = p.attach := rfl
@[simp] theorem Channel.current_record (c : Channel) : c.record.current = c.attach := rfl
@[simp] theorem ReadPort.attach_mk (x : AttachRecord) (latch : Word) (underflow stray : Bool) :
    (ReadPort.mk x latch underflow stray).attach = x.current := rfl
@[simp] theorem WritePort.attach_mk (x : AttachRecord) (staging : Word) (overflow stray : Bool) :
    (WritePort.mk x staging overflow stray).attach = x.current := rfl
@[simp] theorem Channel.attach_mk (x : AttachRecord) (mode : DmaMode) (quantum : Nat) (count : Word) (form : DmaForm)
    (state : ChanState) (grant : Nat) (tally latch staging : Word) (phase : Phase) (stray gap : Bool) :
    (Channel.mk x mode quantum count form state grant tally latch staging phase stray gap).attach = x.current := rfl

/-! ## Reset -/

@[simp] theorem State.ring_reset (r : RingId) : State.reset.ring r = .reset := by
  simp [State.ring, State.reset]

@[simp] theorem State.lane_reset (n : LaneId) : State.reset.lane n = .reset := by
  simp [State.lane, State.reset]

@[simp] theorem State.smap_reset (n : LaneId) : State.reset.smap n = .reset := by
  simp [State.smap, State.reset]

@[simp] theorem State.chan_reset (ch : ChanId) : State.reset.chan ch = .reset := by
  simp [State.chan, State.reset]

end Sys2Proof.Machine
end

