-- ==== Sys2Proof/Laws/Memory.lean ====
section
/-! SUPPORT. Buffer memory: a write keeps the canonical form, a read after a write, and where a cell stands. -/

namespace Sys2Proof.Machine

/-! ## One byte -/

theorem Memory.wfFrom_mono {m : List Host.Cell} {lo lo' : Nat} (h : Memory.wfFrom lo m = true) (hl : lo' ≤ lo) :
    Memory.wfFrom lo' m = true := by
  cases m with
  | nil => rfl
  | cons p m =>
    obtain ⟨k, v⟩ := p
    simp only [Memory.wfFrom, Bool.and_eq_true, decide_eq_true_eq] at h ⊢
    exact ⟨⟨⟨by omega, h.1.1.2⟩, h.1.2⟩, h.2⟩

theorem Memory.read_eq_zero_of_lt {m : List Host.Cell} {lo a : Nat} (h : Memory.wfFrom lo m = true) (ha : a < lo) :
    Memory.read m a = 0 := by
  induction m generalizing lo with
  | nil => rfl
  | cons p m ih =>
    obtain ⟨k, v⟩ := p
    simp only [Memory.wfFrom, Bool.and_eq_true, decide_eq_true_eq] at h
    have hk : k ≠ a := by omega
    simp only [Memory.read, hk, if_false]
    exact ih h.2 (by omega)

theorem Memory.read_insert_self {m : List Host.Cell} {lo a : Nat} (b : Byte) (h : Memory.wfFrom lo m = true) :
    Memory.read (Memory.insert m a b) a = b := by
  induction m generalizing lo with
  | nil =>
    unfold Memory.insert
    split
    · rename_i hb; exact hb.symm
    · exact if_pos rfl
  | cons p m ih =>
    obtain ⟨k, v⟩ := p
    simp only [Memory.wfFrom, Bool.and_eq_true, decide_eq_true_eq] at h
    have hz : a ≤ k → Memory.read m a = 0 := fun hk => Memory.read_eq_zero_of_lt h.2 (by omega)
    unfold Memory.insert
    split
    · have hk : k ≠ a := by omega
      split
      · rename_i hb
        rw [hb, Memory.read, if_neg hk]
        exact hz (by omega)
      · exact if_pos rfl
    · split
      · split
        · rename_i hb
          rw [hb]
          exact hz (by omega)
        · exact if_pos rfl
      · have hk : k ≠ a := by omega
        rw [Memory.read, if_neg hk]
        exact ih h.2

theorem Memory.read_insert_of_ne (m : List Host.Cell) {a a' : Nat} (b : Byte) (h : a' ≠ a) :
    Memory.read (Memory.insert m a b) a' = Memory.read m a' := by
  induction m with
  | nil =>
    unfold Memory.insert
    split
    · rfl
    · exact if_neg h.symm
  | cons p m ih =>
    obtain ⟨k, v⟩ := p
    unfold Memory.insert
    split
    · split
      · rfl
      · exact if_neg h.symm
    · split
      · have hk : k ≠ a' := by omega
        rw [Memory.read, if_neg hk]
        split
        · rfl
        · exact if_neg h.symm
      · simp only [Memory.read, ih]

theorem Memory.wfFrom_insert {m : List Host.Cell} {lo a : Nat} (b : Byte) (h : Memory.wfFrom lo m = true)
    (hl : lo ≤ a) (ha : a < Config.memBytes) : Memory.wfFrom lo (Memory.insert m a b) = true := by
  induction m generalizing lo with
  | nil =>
    unfold Memory.insert
    split
    · rfl
    · rename_i hb
      simp only [Memory.wfFrom, Bool.and_eq_true, decide_eq_true_eq]
      exact ⟨⟨⟨hl, ha⟩, hb⟩, trivial⟩
  | cons p m ih =>
    obtain ⟨k, v⟩ := p
    simp only [Memory.wfFrom, Bool.and_eq_true, decide_eq_true_eq] at h
    unfold Memory.insert
    split
    · split
      · simp only [Memory.wfFrom, Bool.and_eq_true, decide_eq_true_eq]
        exact h
      · rename_i hk hb
        simp only [Memory.wfFrom, Bool.and_eq_true, decide_eq_true_eq]
        exact ⟨⟨⟨hl, ha⟩, hb⟩, ⟨⟨hk, h.1.1.2⟩, h.1.2⟩, h.2⟩
    · split
      · rename_i hk
        split
        · exact Memory.wfFrom_mono h.2 (by omega)
        · rename_i hb
          subst hk
          simp only [Memory.wfFrom, Bool.and_eq_true, decide_eq_true_eq]
          exact ⟨⟨⟨hl, ha⟩, hb⟩, h.2⟩
      · simp only [Memory.wfFrom, Bool.and_eq_true, decide_eq_true_eq]
        exact ⟨h.1, ih h.2 (by omega)⟩

theorem Memory.wf_write {m : List Host.Cell} (a : Nat) (b : Byte) (h : Memory.wf m = true) :
    Memory.wf (Memory.write m a b) = true := by
  unfold Memory.write
  split
  · exact Memory.wfFrom_insert b h (Nat.zero_le a) (by assumption)
  · exact h

theorem Memory.read_write_self {m : List Host.Cell} {a : Nat} (b : Byte) (h : Memory.wf m = true)
    (ha : a < Config.memBytes) : Memory.read (Memory.write m a b) a = b := by
  simp only [Memory.write, ha, if_true]
  exact Memory.read_insert_self b h

theorem Memory.read_write_of_ne (m : List Host.Cell) {a a' : Nat} (b : Byte) (h : a' ≠ a) :
    Memory.read (Memory.write m a b) a' = Memory.read m a' := by
  unfold Memory.write
  split
  · exact Memory.read_insert_of_ne m b h
  · rfl

/-! ## Runs of bytes -/

theorem Memory.wf_writeBytes {m : List Host.Cell} (a n v : Nat) (h : Memory.wf m = true) :
    Memory.wf (Memory.writeBytes m a n v) = true := by
  induction n generalizing m a v with
  | zero => exact h
  | succ n ih => exact ih _ _ (Memory.wf_write a _ h)

theorem Memory.read_writeBytes_outside (m : List Host.Cell) (a n v : Nat) {a' : Nat} (h : a' < a ∨ a + n ≤ a') :
    Memory.read (Memory.writeBytes m a n v) a' = Memory.read m a' := by
  induction n generalizing m a v with
  | zero => rfl
  | succ n ih =>
    simp only [Memory.writeBytes]
    rw [ih _ _ _ (by omega), Memory.read_write_of_ne _ _ (by omega)]

theorem Memory.readBytes_congr {m m' : List Host.Cell} (a n : Nat)
    (h : ∀ i, a ≤ i → i < a + n → Memory.read m i = Memory.read m' i) :
    Memory.readBytes m a n = Memory.readBytes m' a n := by
  induction n generalizing a with
  | zero => rfl
  | succ n ih =>
    simp only [Memory.readBytes]
    rw [h a (by omega) (by omega), ih (a + 1) fun i h1 h2 => h i (by omega) (by omega)]

theorem Memory.readBytes_writeBytes_self {m : List Host.Cell} (a n v : Nat) (h : Memory.wf m = true)
    (hn : a + n ≤ Config.memBytes) :
    Memory.readBytes (Memory.writeBytes m a n v) a n = v % 256 ^ n := by
  induction n generalizing m a v with
  | zero => simp [Memory.readBytes, Nat.mod_one]
  | succ n ih =>
    simp only [Memory.readBytes, Memory.writeBytes]
    rw [ih _ _ (Memory.wf_write a _ h) (by omega), Memory.read_writeBytes_outside _ _ _ _ (by omega),
      Memory.read_write_self _ h (by omega), BitVec.toNat_ofNat, pow_succ 256, Nat.mul_comm (256 ^ n) 256, Nat.mod_mul]

theorem Memory.readBytes_lt (m : List Host.Cell) (a n : Nat) : Memory.readBytes m a n < 256 ^ n := by
  induction n generalizing a with
  | zero => simp [Memory.readBytes]
  | succ n ih =>
    have h1 := ih (a + 1)
    have h2 := (Memory.read m a).isLt
    simp only [Memory.readBytes, pow_succ]
    omega

/-! ## Cells -/

/-- A cell of one of the three widths stands at whole bytes. -/
theorem cellAddr_eq {width : Nat} (base i : Nat) (hw : width = 8 ∨ width = 16 ∨ width = 32) :
    cellAddr base width i = 4 * base + i * (width / 8) := by
  rcases hw with rfl | rfl | rfl <;> simp only [cellAddr] <;> omega

theorem Memory.wf_writeCell {m : List Host.Cell} (base width i : Nat) (c : Cell) (h : Memory.wf m = true) :
    Memory.wf (Memory.writeCell m base width i c) = true :=
  Memory.wf_writeBytes _ _ _ h

theorem Memory.wf_clearWord {m : List Host.Cell} (word : Nat) (h : Memory.wf m = true) :
    Memory.wf (Memory.clearWord m word) = true :=
  Memory.wf_writeBytes _ _ _ h

theorem Memory.readCell_lt (m : List Host.Cell) {base width i : Nat} (hw : width = 8 ∨ width = 16 ∨ width = 32) :
    (Memory.readCell m base width i).toNat < 2 ^ width := by
  have h := Memory.readBytes_lt m (cellAddr base width i) (width / 8)
  rcases hw with rfl | rfl | rfl <;> simp [Memory.readCell] at h ⊢ <;> omega

theorem Memory.readCell_writeCell_self {m : List Host.Cell} {base width i : Nat} (c : Cell) (h : Memory.wf m = true)
    (hw : width = 8 ∨ width = 16 ∨ width = 32) (hi : cellAddr base width i + width / 8 ≤ Config.memBytes) :
    Memory.readCell (Memory.writeCell m base width i c) base width i = lowBits width c := by
  unfold Memory.readCell Memory.writeCell lowBits
  rw [Memory.readBytes_writeBytes_self _ _ _ h hi]
  rcases hw with rfl | rfl | rfl <;> rfl

/-- Writing one cell leaves every cell whose bytes are others. -/
theorem Memory.readCell_writeCell_of_disjoint (m : List Host.Cell) {base width i base' width' i' : Nat} (c : Cell)
    (h : cellAddr base width i + width / 8 ≤ cellAddr base' width' i' ∨
      cellAddr base' width' i' + width' / 8 ≤ cellAddr base width i) :
    Memory.readCell (Memory.writeCell m base width i c) base' width' i' = Memory.readCell m base' width' i' := by
  unfold Memory.readCell Memory.writeCell
  congr 1
  exact Memory.readBytes_congr _ _ fun j h1 h2 => Memory.read_writeBytes_outside _ _ _ _ (by omega)

/-- Writing one cell of a ring leaves the ring's cells at other indices. -/
theorem Memory.readCell_writeCell_of_ne (m : List Host.Cell) {base width i j : Nat} (c : Cell)
    (hw : width = 8 ∨ width = 16 ∨ width = 32) (h : j ≠ i) :
    Memory.readCell (Memory.writeCell m base width i c) base width j = Memory.readCell m base width j := by
  apply Memory.readCell_writeCell_of_disjoint
  rw [cellAddr_eq _ _ hw, cellAddr_eq _ _ hw]
  rcases hw with rfl | rfl | rfl <;> omega

/-- The memory of the reset state has the canonical form. -/
theorem State.reset_memoryOk : State.reset.MemoryOk := rfl

end Sys2Proof.Machine
end

