-- ==== Sys2Proof/Laws/Ops.lean ====
section
/-! SUPPORT. What the shared operations of the ring table, the channels and the notice unit can change, said once. -/

namespace Sys2Proof.Machine

/-! ## Posting -/

/-- Everything a post can do at the notice unit (R162, R165). -/
theorem NoticeUnit.post_cases (u : NoticeUnit) (x : Notice) :
    (u.mask.getLsbD x.kind.code = false ∧ u.post x = u) ∨
    (u.mask.getLsbD x.kind.code = true ∧ u.queue.length < Config.queueDepth ∧
      u.post x = { u with queue := u.queue ++ [x] }) ∨
    (u.mask.getLsbD x.kind.code = true ∧ ¬ u.queue.length < Config.queueDepth ∧
      u.post x = { u with lost := satIncByte u.lost }) := by
  unfold NoticeUnit.post
  by_cases hm : u.mask.getLsbD x.kind.code = true
  · by_cases hq : u.queue.length < Config.queueDepth
    · exact Or.inr (Or.inl ⟨hm, hq, by rw [if_pos hm, if_pos hq]⟩)
    · exact Or.inr (Or.inr ⟨hm, hq, by rw [if_pos hm, if_neg hq]⟩)
  · exact Or.inl ⟨by simpa using hm, by rw [if_neg hm]⟩

@[simp] theorem NoticeUnit.mask_post (u : NoticeUnit) (x : Notice) : (u.post x).mask = u.mask := by
  rcases u.post_cases x with h | h | h
  · rw [h.2]
  · rw [h.2.2]
  · rw [h.2.2]

/-- A post keeps the bound of the queue, and Lost above 0 only on a full queue. -/
theorem NoticeUnit.ok_post {u : NoticeUnit} (x : Notice) (h : u.Ok) : (u.post x).Ok := by
  obtain ⟨h1, h2⟩ := h
  rcases u.post_cases x with ⟨_, e⟩ | ⟨_, hq, e⟩ | ⟨_, hq, e⟩
  · rw [e]; exact ⟨h1, h2⟩
  · rw [e]
    refine ⟨?_, ?_⟩
    · show (u.queue ++ [x]).length ≤ Config.queueDepth
      simp only [List.length_append, List.length_cons, List.length_nil]
      omega
    · intro hl
      have := h2 hl
      omega
  · rw [e]
    refine ⟨h1, fun _ => ?_⟩
    show u.queue.length = Config.queueDepth
    omega

theorem NoticeUnit.ok_pop {u : NoticeUnit} (h : u.Ok) : u.pop.Ok := by
  obtain ⟨h1, h2⟩ := h
  unfold NoticeUnit.pop
  split
  · exact ⟨h1, h2⟩
  · rename_i x rest he
    have hq : u.queue.length = rest.length + 1 := by rw [he]; rfl
    simp only [NoticeUnit.appendLost]
    split
    · rename_i hl
      refine ⟨?_, fun hn => absurd hl hn⟩
      show rest.length ≤ Config.queueDepth
      omega
    · rename_i hl
      refine ⟨?_, fun hn => absurd rfl hn⟩
      have := h2 hl
      simp only [List.length_append, List.length_cons, List.length_nil]
      omega

@[simp] theorem NoticeUnit.mask_pop (u : NoticeUnit) : u.pop.mask = u.mask := by
  unfold NoticeUnit.pop
  split
  · rfl
  · simp only [NoticeUnit.appendLost]
    split <;> rfl

/-! ## Zones -/

theorem State.rezone_frame (s : State) (r : RingId) :
    s.rezone r = { s with rings := (s.rezone r).rings, notices := (s.rezone r).notices } := by
  simp only [State.rezone]
  split
  · rfl
  · split <;> rfl

@[simp] theorem State.ring_rezone_self (s : State) (r : RingId) :
    (s.rezone r).ring r = { s.ring r with zone := (s.ring r).zoneNow } := by
  simp only [State.rezone]
  split
  · rename_i h; rw [h]
  · split <;> simp

@[simp] theorem State.ring_rezone_of_ne (s : State) {r q : RingId} (h : q ≠ r) : (s.rezone r).ring q = s.ring q := by
  simp only [State.rezone]
  split
  · rfl
  · split <;> simp [h]

/-- The notices of a zone evaluation (R4). -/
theorem State.notices_rezone (s : State) (r : RingId) :
    (s.rezone r).notices =
      if (s.ring r).zoneNow = (s.ring r).zone then s.notices
      else match (s.ring r).zoneNow with
        | .low => s.notices.post ⟨.ringLow, .ring r, none, 0⟩
        | .high => s.notices.post ⟨.ringHigh, .ring r, none, 0⟩
        | .mid => s.notices := by
  simp only [State.rezone]
  split
  · rfl
  · split <;> simp_all

@[simp] theorem State.chan_rezone (s : State) (r : RingId) (ch : ChanId) : (s.rezone r).chan ch = s.chan ch := by
  rw [State.rezone_frame]; rfl
@[simp] theorem State.lane_rezone (s : State) (r : RingId) (n : LaneId) : (s.rezone r).lane n = s.lane n := by
  rw [State.rezone_frame]; rfl
@[simp] theorem State.smap_rezone (s : State) (r : RingId) (n : LaneId) : (s.rezone r).smap n = s.smap n := by
  rw [State.rezone_frame]; rfl
@[simp] theorem State.mem_rezone (s : State) (r : RingId) : (s.rezone r).mem = s.mem := by
  rw [State.rezone_frame]
@[simp] theorem State.chans_rezone (s : State) (r : RingId) : (s.rezone r).chans = s.chans := by
  rw [State.rezone_frame]

/-! ## Requests -/

/-- The record of a channel after it evaluates its request on the ring of its attachment (R135). -/
theorem State.chan_evaluate_self (s : State) (ch : ChanId) :
    (s.evaluate ch).chan ch = s.chan ch ∨
    ∃ a, (s.chan ch).attach = some a ∧ (s.chan ch).state = .active ∧ (s.chan ch).grant = 0 ∧
      (s.chan ch).want ≤ (s.ring a.ring).available a.side ∧
      (s.evaluate ch).chan ch = { s.chan ch with grant := (s.chan ch).want } := by
  simp only [State.evaluate]
  split
  · exact Or.inl rfl
  · rename_i a ha
    split
    · rename_i h
      exact Or.inr ⟨a, ha, h.1, h.2.1, h.2.2, by simp⟩
    · exact Or.inl rfl

theorem State.evaluate_frame (s : State) (ch : ChanId) : s.evaluate ch = { s with chans := (s.evaluate ch).chans } := by
  simp only [State.evaluate]
  split
  · rfl
  · split <;> rfl

@[simp] theorem State.chan_evaluate_of_ne (s : State) {ch d : ChanId} (h : d ≠ ch) :
    (s.evaluate ch).chan d = s.chan d := by
  simp only [State.evaluate]
  split
  · rfl
  · split
    · simp [h]
    · rfl

/-- An evaluation changes no more than the grant. -/
theorem State.chan_evaluate (s : State) (ch d : ChanId) :
    ∃ g, (s.evaluate ch).chan d = { s.chan d with grant := g } := by
  by_cases h : d = ch
  · subst h
    rcases s.chan_evaluate_self d with e | ⟨a, _, _, _, _, e⟩
    · exact ⟨_, e⟩
    · exact ⟨_, e⟩
  · exact ⟨(s.chan d).grant, by rw [State.chan_evaluate_of_ne s h]⟩

theorem State.reportTo_frame (s : State) (r : RingId) (ch : ChanId) :
    s.reportTo r ch = { s with chans := (s.reportTo r ch).chans } := by
  simp only [State.reportTo]
  split
  · exact s.evaluate_frame ch
  · rfl

theorem State.report_frame (s : State) (r : RingId) : s.report r = { s with chans := (s.report r).chans } := by
  simp only [State.report]
  rw [State.reportTo_frame (s.reportTo r 0), State.reportTo_frame s r 0]

@[simp] theorem State.ring_report (s : State) (r q : RingId) : (s.report r).ring q = s.ring q := by
  rw [State.report_frame]; rfl
@[simp] theorem State.rings_report (s : State) (r : RingId) : (s.report r).rings = s.rings := by
  rw [State.report_frame]
@[simp] theorem State.lane_report (s : State) (r : RingId) (n : LaneId) : (s.report r).lane n = s.lane n := by
  rw [State.report_frame]; rfl
@[simp] theorem State.smap_report (s : State) (r : RingId) (n : LaneId) : (s.report r).smap n = s.smap n := by
  rw [State.report_frame]; rfl
@[simp] theorem State.mem_report (s : State) (r : RingId) : (s.report r).mem = s.mem := by
  rw [State.report_frame]
@[simp] theorem State.notices_report (s : State) (r : RingId) : (s.report r).notices = s.notices := by
  rw [State.report_frame]

theorem State.chan_reportTo (s : State) (r : RingId) (ch d : ChanId) :
    ∃ g, (s.reportTo r ch).chan d = { s.chan d with grant := g } := by
  simp only [State.reportTo]
  split
  · exact s.chan_evaluate ch d
  · exact ⟨_, rfl⟩

/-- A level report changes no more of a channel than its grant (R18). -/
theorem State.chan_report (s : State) (r : RingId) (d : ChanId) :
    ∃ g, (s.report r).chan d = { s.chan d with grant := g } := by
  obtain ⟨g0, e0⟩ := s.chan_reportTo r 0 d
  obtain ⟨g1, e1⟩ := (s.reportTo r 0).chan_reportTo r 1 d
  exact ⟨g1, by simp only [State.report]; rw [e1, e0]⟩

/-- What an evaluation records depends on the rings and the channels alone (R135). -/
theorem State.chans_evaluate_congr {s t : State} (hr : s.rings = t.rings) (hc : s.chans = t.chans) (ch : ChanId) :
    (s.evaluate ch).chans = (t.evaluate ch).chans := by
  have h1 : s.chan ch = t.chan ch := congrArg (·[ch.val]) hc
  have h2 : ∀ r, s.ring r = t.ring r := fun r => congrArg (·[r.val]) hr
  simp only [State.evaluate, h1, h2]
  split
  · exact hc
  · split
    · simp only [State.setChan, hc]
    · exact hc

theorem State.chans_reportTo_congr {s t : State} (hr : s.rings = t.rings) (hc : s.chans = t.chans) (r : RingId)
    (ch : ChanId) : (s.reportTo r ch).chans = (t.reportTo r ch).chans := by
  have h : s.seatedAt ch r = t.seatedAt ch r := by
    simp only [State.seatedAt, State.chan, hc]
  simp only [State.reportTo, h]
  split
  · exact State.chans_evaluate_congr hr hc ch
  · exact hc

/-- What a level report records depends on the rings and the channels alone (R18). -/
theorem State.chans_report_congr {s t : State} (hr : s.rings = t.rings) (hc : s.chans = t.chans) (r : RingId) :
    (s.report r).chans = (t.report r).chans := by
  refine State.chans_reportTo_congr ?_ (State.chans_reportTo_congr hr hc r 0) r 1
  rw [State.reportTo_frame s, State.reportTo_frame t]
  exact hr

/-! ## Claims -/

theorem State.storeCell_frame (s : State) (r : RingId) (c : Cell) :
    s.storeCell r c = { s with
      mem := Memory.writeCell s.mem (s.ring r).base (s.ring r).width (s.ring r).tail c,
      rings := (s.storeCell r c).rings, notices := (s.storeCell r c).notices, chans := (s.storeCell r c).chans } := by
  simp only [State.storeCell]
  rw [State.report_frame, State.rezone_frame]
  rfl

/-- The record of the ring after a stored append (R14). -/
@[simp] theorem State.ring_storeCell_self (s : State) (r : RingId) (c : Cell) :
    (s.storeCell r c).ring r = { (s.ring r).stored with zone := (s.ring r).stored.zoneNow } := by
  simp [State.storeCell]

@[simp] theorem State.ring_storeCell_of_ne (s : State) {r q : RingId} (c : Cell) (h : q ≠ r) :
    (s.storeCell r c).ring q = s.ring q := by
  simp [State.storeCell, h]

theorem State.removeCell_frame (s : State) (r : RingId) :
    s.removeCell r = { s with rings := (s.removeCell r).rings, notices := (s.removeCell r).notices,
                              chans := (s.removeCell r).chans } := by
  simp only [State.removeCell]
  rw [State.report_frame, State.rezone_frame]
  rfl

/-- The record of the ring after a removal (R16). -/
@[simp] theorem State.ring_removeCell_self (s : State) (r : RingId) :
    (s.removeCell r).ring r =
      { (s.ring r).removed (s.headCell r) with zone := ((s.ring r).removed (s.headCell r)).zoneNow } := by
  simp [State.removeCell]

@[simp] theorem State.ring_removeCell_of_ne (s : State) {r q : RingId} (h : q ≠ r) :
    (s.removeCell r).ring q = s.ring q := by
  simp [State.removeCell, h]

theorem State.displaceCell_frame (s : State) (r : RingId) (c : Cell) :
    s.displaceCell r c = { s with
      mem := Memory.writeCell s.mem (s.ring r).base (s.ring r).width (s.ring r).tail c,
      rings := (s.displaceCell r c).rings } := rfl

theorem State.primeFull_frame (s : State) (r : RingId) :
    s.primeFull r = { s with rings := (s.primeFull r).rings } := rfl

theorem State.countOverrun_frame (s : State) (r : RingId) (n : LaneId) :
    s.countOverrun r n = { s with rings := (s.countOverrun r n).rings, notices := (s.countOverrun r n).notices } := by
  simp only [State.countOverrun]
  split <;> rfl

theorem State.countUnderrun_frame (s : State) (r : RingId) (n : LaneId) :
    s.countUnderrun r n = { s with rings := (s.countUnderrun r n).rings, notices := (s.countUnderrun r n).notices } := by
  simp only [State.countUnderrun]
  split <;> rfl

@[simp] theorem State.ring_countOverrun_of_ne (s : State) {r q : RingId} (n : LaneId) (h : q ≠ r) :
    (s.countOverrun r n).ring q = s.ring q := by
  simp only [State.countOverrun]
  split <;> simp [h]

@[simp] theorem State.ring_countUnderrun_of_ne (s : State) {r q : RingId} (n : LaneId) (h : q ≠ r) :
    (s.countUnderrun r n).ring q = s.ring q := by
  simp only [State.countUnderrun]
  split <;> simp [h]

/-- Everything an append claim can change: memory, rings, notices and channels; all at one ring and at the
channels that hold a seat of it (R14, R15, R18). -/
theorem State.appendClaim_frame (s : State) (r : RingId) (c : Cell) (who : Appender) :
    (s.appendClaim r c who).1 = { s with
      mem := (s.appendClaim r c who).1.mem, rings := (s.appendClaim r c who).1.rings,
      notices := (s.appendClaim r c who).1.notices, chans := (s.appendClaim r c who).1.chans } := by
  simp only [State.appendClaim]
  split
  · rfl
  · split
    · rw [State.storeCell_frame]
    · split
      · rfl
      · split
        · rw [State.countOverrun_frame]; rfl
        · rw [State.countOverrun_frame]; rfl

theorem State.ring_appendClaim_of_ne (s : State) {r q : RingId} (c : Cell) (who : Appender) (h : q ≠ r) :
    (s.appendClaim r c who).1.ring q = s.ring q := by
  simp only [State.appendClaim]
  split
  · rfl
  · split
    · simp [h]
    · split
      · simp [State.primeFull, h]
      · split
        · simp [State.primeFull, h]
        · simp [State.primeFull, State.displaceCell, h]

/-- An append claim keeps the canonical form of memory. -/
theorem State.memoryOk_appendClaim {s : State} (r : RingId) (c : Cell) (who : Appender) (h : s.MemoryOk) :
    (s.appendClaim r c who).1.MemoryOk := by
  have hw := Memory.wf_writeCell (s.ring r).base (s.ring r).width (s.ring r).tail c h
  simp only [State.appendClaim]
  split
  · exact h
  · split
    · rw [State.storeCell_frame]; exact hw
    · split
      · exact h
      · split
        · rw [State.countOverrun_frame]; exact h
        · rw [State.countOverrun_frame]; exact hw

/-- Everything a host agent's remove claim can change (R16, R17). -/
theorem State.removeForHost_frame (s : State) (r : RingId) :
    (s.removeForHost r).1 = { s with rings := (s.removeForHost r).1.rings,
                                     notices := (s.removeForHost r).1.notices,
                                     chans := (s.removeForHost r).1.chans } := by
  simp only [State.removeForHost]
  split
  · rfl
  · split
    · rw [State.removeCell_frame]
    · rfl

theorem State.ring_removeForHost_of_ne (s : State) {r q : RingId} (h : q ≠ r) :
    (s.removeForHost r).1.ring q = s.ring q := by
  simp only [State.removeForHost]
  split
  · rfl
  · split
    · simp [h]
    · rfl

/-- Everything a lane's remove claim can change (R16, R17, R20, R21). -/
theorem State.removeForLane_frame (s : State) (r : RingId) (n : LaneId) :
    (s.removeForLane r n).1 = { s with rings := (s.removeForLane r n).1.rings,
                                       notices := (s.removeForLane r n).1.notices,
                                       chans := (s.removeForLane r n).1.chans } := by
  simp only [State.removeForLane]
  split
  · rfl
  · split
    · rfl
    · split
      · rw [State.removeCell_frame]
      · rw [State.countUnderrun_frame]

theorem State.ring_removeForLane_of_ne (s : State) {r q : RingId} (n : LaneId) (h : q ≠ r) :
    (s.removeForLane r n).1.ring q = s.ring q := by
  simp only [State.removeForLane]
  split
  · rfl
  · split
    · rfl
    · split <;> simp [h]

end Sys2Proof.Machine
end

