-- ==== Sys2Proof/Laws/Window.lean ====
section
/-! SUPPORT. The arrival of a window command and the arguments it reads, said once. -/

namespace Sys2Proof.Machine

/-! ## Arguments -/

theorem ringArg_eq_some {w : Word} {r : RingId} (h : w.toNat = r.val) : ringArg w = some r := by
  have := r.isLt
  simp only [ringArg]
  rw [dif_pos (by omega)]
  congr 1
  exact Fin.ext h

theorem ringArg_eq_none {w : Word} (h : 16 ≤ w.toNat) : ringArg w = none := by
  simp only [ringArg]
  rw [dif_neg (by omega)]

theorem laneArg_eq_some {w : Word} {n : LaneId} (h : w.toNat = n.val) : laneArg w = some n := by
  have := n.isLt
  simp only [laneArg]
  rw [dif_pos (by omega)]
  congr 1
  exact Fin.ext h

theorem laneArg_eq_none {w : Word} (h : 4 ≤ w.toNat) : laneArg w = none := by
  simp only [laneArg]
  rw [dif_neg (by omega)]

theorem chanArg_eq_some {w : Word} {ch : ChanId} (h : w.toNat = ch.val) : chanArg w = some ch := by
  have := ch.isLt
  simp only [chanArg]
  rw [dif_pos (by omega)]
  congr 1
  exact Fin.ext h

theorem chanArg_eq_none {w : Word} (h : 2 ≤ w.toNat) : chanArg w = none := by
  simp only [chanArg]
  rw [dif_neg (by omega)]

theorem slotArg_eq_some {w : Word} {i : Fin 32} (h : w.toNat = i.val) : slotArg w = some i := by
  have := i.isLt
  simp only [slotArg]
  rw [dif_pos (by omega)]
  congr 1
  exact Fin.ext h

theorem slotArg_eq_none {w : Word} (h : 32 ≤ w.toNat) : slotArg w = none := by
  simp only [slotArg]
  rw [dif_neg (by omega)]

theorem agentArg_eq_none {w : Word} (h : 4 ≤ w.toNat) : agentArg w = none := by
  unfold agentArg
  split
  · omega
  · omega
  · omega
  · omega
  · rfl

theorem flagArg_eq_none {w : Word} (h : 2 ≤ w.toNat) : flagArg w = none := by
  unfold flagArg
  split
  · omega
  · omega
  · rfl

/-! ## Arrivals -/

/-- A command whose code the window takes: the owner's part, then its answer (R150). -/
theorem arrive_of_accepts {code : Word} {owner : Owner} {s : State} (h : s.Accepts) :
    arrive code owner s = (owner (s.setCmd code)).1.answer (owner (s.setCmd code)).2 := by
  simp [arrive, h.1, h.2]

/-- During start-up the owner has no part (R149, R150). -/
theorem arrive_of_startup {code : Word} {owner : Owner} {s : State} (h1 : s.resetLow = false)
    (h2 : s.win.ready = false) : arrive code owner s = s.onlyAnswered code (.plain .notReady) := by
  simp only [arrive, h1, h2]
  rfl

/-- A refusal in STARTUP changes the window registers alone (R150, R159). -/
theorem State.refuseNotReady_eq (s : State) (code : Word) :
    s.refuseNotReady code = s.onlyAnswered code (.plain .notReady) := rfl

/-- While RESET_N is low a strobe is no access (R170). -/
theorem arrive_of_resetLow {code : Word} {owner : Owner} {s : State} (h : s.resetLow = true) :
    arrive code owner s = s := by
  simp [arrive, h]

/-- An owner that refuses changes the window registers alone. -/
theorem answer_setCmd (s : State) (code : Word) (a : Answer) : (s.setCmd code).answer a = s.onlyAnswered code a := rfl

@[simp] theorem State.ring_setCmd (s : State) (code : Word) (r : RingId) : (s.setCmd code).ring r = s.ring r := rfl
@[simp] theorem State.lane_setCmd (s : State) (code : Word) (n : LaneId) : (s.setCmd code).lane n = s.lane n := rfl
@[simp] theorem State.smap_setCmd (s : State) (code : Word) (n : LaneId) : (s.setCmd code).smap n = s.smap n := rfl
@[simp] theorem State.chan_setCmd (s : State) (code : Word) (ch : ChanId) : (s.setCmd code).chan ch = s.chan ch := rfl
@[simp] theorem State.arg0_setCmd (s : State) (code : Word) : (s.setCmd code).win.arg0 = s.win.arg0 := rfl
@[simp] theorem State.arg1_setCmd (s : State) (code : Word) : (s.setCmd code).win.arg1 = s.win.arg1 := rfl
@[simp] theorem State.arg2_setCmd (s : State) (code : Word) : (s.setCmd code).win.arg2 = s.win.arg2 := rfl
@[simp] theorem State.arg3_setCmd (s : State) (code : Word) : (s.setCmd code).win.arg3 = s.win.arg3 := rfl
@[simp] theorem State.attachOf_setCmd (s : State) (code : Word) (a : Agent) :
    (s.setCmd code).attachOf a = s.attachOf a := rfl

@[simp] theorem State.ring_answer (s : State) (a : Answer) (r : RingId) : (s.answer a).ring r = s.ring r := rfl
@[simp] theorem State.lane_answer (s : State) (a : Answer) (n : LaneId) : (s.answer a).lane n = s.lane n := rfl
@[simp] theorem State.smap_answer (s : State) (a : Answer) (n : LaneId) : (s.answer a).smap n = s.smap n := rfl
@[simp] theorem State.chan_answer (s : State) (a : Answer) (ch : ChanId) : (s.answer a).chan ch = s.chan ch := rfl
@[simp] theorem State.attachOf_answer (s : State) (a : Answer) (b : Agent) :
    (s.answer a).attachOf b = s.attachOf b := rfl

/-! ## Commands that name a ring, a lane or a channel -/

theorem onOpenRing_of_opened (f : State → RingId → State × Answer) {s : State} {r : RingId}
    (h : s.win.arg0.toNat = r.val) (ho : (s.ring r).state = .opened) : onOpenRing f s = f s r := by
  simp [onOpenRing, ringArg_eq_some h, ho]

theorem onOpenRing_of_closed (f : State → RingId → State × Answer) {s : State} {r : RingId}
    (h : s.win.arg0.toNat = r.val) (hc : (s.ring r).state = .closed) :
    onOpenRing f s = (s, .plain .ringState) := by
  simp [onOpenRing, ringArg_eq_some h, hc]

theorem onOpenRing_of_badRing (f : State → RingId → State × Answer) {s : State} (h : 16 ≤ s.win.arg0.toNat) :
    onOpenRing f s = (s, .plain .badParam) := by
  simp [onOpenRing, ringArg_eq_none h]

theorem onLane_of_lane (f : State → LaneId → State × Answer) {s : State} {n : LaneId}
    (h : s.win.arg0.toNat = n.val) : onLane f s = f s n := by
  simp [onLane, laneArg_eq_some h]

theorem onLane_of_badLane (f : State → LaneId → State × Answer) {s : State} (h : 4 ≤ s.win.arg0.toNat) :
    onLane f s = (s, .plain .badParam) := by
  simp [onLane, laneArg_eq_none h]

theorem onChan_of_chan (f : State → ChanId → State × Answer) {s : State} {ch : ChanId}
    (h : s.win.arg0.toNat = ch.val) : onChan f s = f s ch := by
  simp [onChan, chanArg_eq_some h]

theorem onChan_of_badChan (f : State → ChanId → State × Answer) {s : State} (h : 2 ≤ s.win.arg0.toNat) :
    onChan f s = (s, .plain .badParam) := by
  simp [onChan, chanArg_eq_none h]

end Sys2Proof.Machine
end

