-- ==== Sys2Proof/Laws/Exchange.lean ====
section
/-! SUPPORT. What the slot map unit changes of seats and banks, and what entry to OFF changes, said once. -/

namespace Sys2Proof.Machine

/-! ## Seats -/

theorem State.mapSeats_frame (s : State) (f : Side → RingId → Seat → Seat) :
    s.mapSeats f = { s with rings := (s.mapSeats f).rings } := rfl

/-- Each seat of each ring, and nothing else of a ring's record. -/
@[simp] theorem State.ring_mapSeats (s : State) (f : Side → RingId → Seat → Seat) (r : RingId) :
    (s.mapSeats f).ring r =
      { s.ring r with producer := f .producer r (s.ring r).producer, consumer := f .consumer r (s.ring r).consumer } := by
  simp [State.mapSeats]

theorem State.seat_mapSeats (s : State) (f : Side → RingId → Seat → Seat) (r : RingId) (side : Side) :
    ((s.mapSeats f).ring r).seat side = f side r ((s.ring r).seat side) := by
  rw [State.ring_mapSeats]
  cases side <;> rfl

theorem State.sameButSeats_mapSeats (s : State) (f : Side → RingId → Seat → Seat) (r : RingId) :
    (s.ring r).SameButSeats ((s.mapSeats f).ring r) := by
  rw [State.ring_mapSeats]
  rfl

theorem Ring.SameButSeats.trans {g h k : Ring} (h1 : g.SameButSeats h) (h2 : h.SameButSeats k) : g.SameButSeats k := by
  unfold Ring.SameButSeats at h1 h2 ⊢
  rw [h1] at h2
  exact h2

/-! ## Banks -/

@[simp] theorem BankName.other_other (b : BankName) : b.other.other = b := by cases b <;> rfl
@[simp] theorem SlotMap.liveBank_setEdit (m : SlotMap) (b : Bank) : (m.setEdit b).liveBank = m.liveBank := by
  cases hm : m.live <;> simp [SlotMap.setEdit, SlotMap.liveBank, SlotMap.bank, hm]
@[simp] theorem SlotMap.editBank_setEdit (m : SlotMap) (b : Bank) : (m.setEdit b).editBank = b := by
  cases hm : m.live <;> simp [SlotMap.setEdit, SlotMap.editBank, SlotMap.bank, BankName.other, hm]
@[simp] theorem SlotMap.live_setEdit (m : SlotMap) (b : Bank) : (m.setEdit b).live = m.live := by
  cases hm : m.live <;> simp [SlotMap.setEdit, hm]
@[simp] theorem SlotMap.swapPending_setEdit (m : SlotMap) (b : Bank) : (m.setEdit b).swapPending = m.swapPending := by
  cases hm : m.live <;> simp [SlotMap.setEdit, hm]
@[simp] theorem SlotMap.liveBank_setLive (m : SlotMap) (b : Bank) : (m.setLive b).liveBank = b := by
  cases hm : m.live <;> simp [SlotMap.setLive, SlotMap.liveBank, SlotMap.bank, hm]
@[simp] theorem SlotMap.editBank_setLive (m : SlotMap) (b : Bank) : (m.setLive b).editBank = m.editBank := by
  cases hm : m.live <;> simp [SlotMap.setLive, SlotMap.editBank, SlotMap.bank, BankName.other, hm]
@[simp] theorem SlotMap.live_setLive (m : SlotMap) (b : Bank) : (m.setLive b).live = m.live := by
  cases hm : m.live <;> simp [SlotMap.setLive, hm]
@[simp] theorem SlotMap.swapPending_setLive (m : SlotMap) (b : Bank) : (m.setLive b).swapPending = m.swapPending := by
  cases hm : m.live <;> simp [SlotMap.setLive, hm]
@[simp] theorem SlotMap.liveBank_swapLive (m : SlotMap) : m.swapLive.liveBank = m.editBank := by
  simp [SlotMap.swapLive, SlotMap.liveBank, SlotMap.editBank, SlotMap.bank]
@[simp] theorem SlotMap.editBank_swapLive (m : SlotMap) : m.swapLive.editBank = m.liveBank := by
  simp [SlotMap.swapLive, SlotMap.liveBank, SlotMap.editBank, SlotMap.bank]

/-- An entry among the counted ones of a bank, by its slot (R34, R83). -/
theorem mem_counted (b : Bank) (slots : Nat) (e : SlotEntry) :
    e ∈ counted b slots ↔ ∃ i : Fin 32, i.val < slots ∧ b[i] = e := by
  simp only [counted, List.mem_take_iff_getElem, Vector.length_toList, Vector.getElem_toList]
  constructor
  · rintro ⟨i, hi, h⟩
    exact ⟨⟨i, by omega⟩, by simp; omega, h⟩
  · rintro ⟨i, hi, h⟩
    exact ⟨i.val, by omega, h⟩

/-- What it is for a bank to name a ring on a side, slot by slot (R34). -/
theorem bankNames_iff (b : Bank) (slots : Nat) (side : Side) (r : RingId) :
    bankNames b slots side r = true ↔ ∃ i : Fin 32, i.val < slots ∧ b[i].names side = some r := by
  simp only [bankNames, List.any_eq_true, mem_counted, beq_iff_eq]
  constructor
  · rintro ⟨e, ⟨i, hi, rfl⟩, h⟩
    exact ⟨i, hi, h⟩
  · rintro ⟨i, hi, h⟩
    exact ⟨_, ⟨i, hi, rfl⟩, h⟩

theorem State.validateFrom_eq_none_iff (s : State) (n : LaneId) (es : List SlotEntry) (slot : Nat) :
    s.validateFrom n slot es = none ↔
      ∀ e ∈ es, s.entryTest n .consumer e = none ∧ s.entryTest n .producer e = none := by
  induction es generalizing slot with
  | nil => simp [State.validateFrom]
  | cons e rest ih =>
    simp only [State.validateFrom, List.forall_mem_cons]
    split
    · rename_i h
      simp [h]
    · rename_i h
      split
      · rename_i h2
        simp [h2]
      · rename_i h2
        simp [h, h2, ih]

/-- Validation passes exactly where both tests of every counted entry pass (R83). -/
theorem State.validateSwap_eq_none_iff (s : State) (n : LaneId) :
    s.validateSwap n = none ↔ ∀ i : Fin 32, i.val < (s.lane n).cfg.slots →
      s.entryTest n .consumer (s.smap n).editBank[i] = none ∧ s.entryTest n .producer (s.smap n).editBank[i] = none := by
  simp only [State.validateSwap, State.validateFrom_eq_none_iff, mem_counted]
  constructor
  · intro h i hi
    exact h _ ⟨i, hi, rfl⟩
  · rintro h e ⟨i, hi, rfl⟩
    exact h i hi

/-! ## The exchange, its cancellation and entry to OFF -/

theorem State.exists_mapSeats (s : State) (f : Side → RingId → Seat → Seat) :
    ∃ rings, s.mapSeats f = { s with rings := rings } := ⟨_, rfl⟩

theorem State.exists_exchange (s : State) (n : LaneId) (frame : Option Word) :
    ∃ rings maps, s.exchange n frame = { s with
      rings := rings, maps := maps, notices := s.notices.post ⟨.swapDone, .lane n, frame, 0⟩ } := by
  obtain ⟨r1, e1⟩ := (s.setSmap n (s.smap n).swapLive).exists_mapSeats fun _ _ seat => seat.takeBy n
  simp only [State.exchange, State.takeSeats]
  rw [e1]
  simp only [State.releaseSeats]
  generalize hf : (fun side r (seat : Seat) => _) = f
  obtain ⟨r2, e2⟩ := State.exists_mapSeats { s.setSmap n (s.smap n).swapLive with rings := r1 } f
  rw [e2]
  exact ⟨r2, _, rfl⟩

/-- Everything an exchange can change: the lane's map, the rings' seats and the notices (R86, R87). -/
theorem State.exchange_frame (s : State) (n : LaneId) (frame : Option Word) :
    s.exchange n frame = { s with
      rings := (s.exchange n frame).rings, maps := (s.exchange n frame).maps,
      notices := s.notices.post ⟨.swapDone, .lane n, frame, 0⟩ } := by
  obtain ⟨rings, maps, e⟩ := s.exists_exchange n frame
  rw [e]

theorem State.sameButSeats_takeSeats (s : State) (n : LaneId) (r : RingId) :
    (s.ring r).SameButSeats ((s.takeSeats n).ring r) := s.sameButSeats_mapSeats _ r

theorem State.sameButSeats_releaseSeats (s : State) (n : LaneId) (r : RingId) :
    (s.ring r).SameButSeats ((s.releaseSeats n).ring r) := s.sameButSeats_mapSeats _ r

theorem State.sameButSeats_unreserveSeats (s : State) (n : LaneId) (r : RingId) :
    (s.ring r).SameButSeats ((s.unreserveSeats n).ring r) := s.sameButSeats_mapSeats _ r

theorem State.sameButSeats_reserveSeats (s : State) (n : LaneId) (r : RingId) :
    (s.ring r).SameButSeats ((s.reserveSeats n).ring r) := s.sameButSeats_mapSeats _ r

theorem State.dropSwap_frame (s : State) (n : LaneId) :
    s.dropSwap n = { s with rings := (s.dropSwap n).rings, maps := (s.dropSwap n).maps } := by
  have h : ∃ rings maps, s.dropSwap n = { s with rings := rings, maps := maps } := by
    obtain ⟨r1, e1⟩ := s.exists_mapSeats fun _ _ seat => seat.unreserve n
    simp only [State.dropSwap, State.unreserveSeats]
    rw [e1]
    exact ⟨r1, _, rfl⟩
  obtain ⟨rings, maps, e⟩ := h
  rw [e]

/-- Everything the cancellation at entry to OFF can change (R90). -/
theorem State.cancelSwap_frame (s : State) (n : LaneId) :
    s.cancelSwap n = { s with
      rings := (s.cancelSwap n).rings, maps := (s.cancelSwap n).maps,
      notices := if (s.smap n).swapPending then s.notices.post ⟨.swapCancelled, .lane n, none, 0⟩ else s.notices } := by
  have h : ∃ rings maps, s.cancelSwap n = { s with
      rings := rings, maps := maps,
      notices := if (s.smap n).swapPending then s.notices.post ⟨.swapCancelled, .lane n, none, 0⟩ else s.notices } := by
    simp only [State.cancelSwap]
    split
    · rw [State.dropSwap_frame]
      exact ⟨_, _, rfl⟩
    · exact ⟨_, _, rfl⟩
  obtain ⟨rings, maps, e⟩ := h
  rw [e]

/-- Everything entry to OFF can change (R53, R90). -/
theorem State.enterOff_frame (s : State) (n : LaneId) :
    s.enterOff n = { s with
      lanes := (s.setLane n (s.lane n).toOff).lanes, rings := (s.enterOff n).rings, maps := (s.enterOff n).maps,
      notices := if (s.smap n).swapPending then s.notices.post ⟨.swapCancelled, .lane n, none, 0⟩ else s.notices } := by
  simp only [State.enterOff]
  rw [State.cancelSwap_frame]
  rfl

@[simp] theorem State.lane_enterOff_self (s : State) (n : LaneId) : (s.enterOff n).lane n = (s.lane n).toOff := by
  rw [State.enterOff_frame]
  exact State.lane_setLane_self s n _

theorem State.lane_enterOff_of_ne (s : State) {n m : LaneId} (h : m ≠ n) : (s.enterOff n).lane m = s.lane m := by
  rw [State.enterOff_frame]
  exact State.lane_setLane_of_ne s n m _ h

end Sys2Proof.Machine
end

