-- ==== Sys2Proof/Laws/Framing.lean ====
section
/-! SUPPORT. What slot starts, frame starts, lock and entry to HUNT can change, said once. -/

namespace Sys2Proof.Machine

/-! ## Slot starts -/

theorem State.transmitHalf_frame (s : State) (n : LaneId) (e : SlotEntry) :
    (s.transmitHalf n e).1 = { s with
      rings := (s.transmitHalf n e).1.rings, notices := (s.transmitHalf n e).1.notices,
      chans := (s.transmitHalf n e).1.chans } := by
  simp only [State.transmitHalf]
  split
  · rfl
  · rfl
  · exact State.removeForLane_frame s e.txRing n

theorem State.postMark_frame (s : State) (n : LaneId) (i : Nat) (e : SlotEntry) :
    s.postMark n i e = { s with notices := (s.postMark n i e).notices } := by
  simp only [State.postMark]
  split <;> rfl

/-- Everything a slot start can change (R95). -/
theorem State.slotStart_frame (s : State) (n : LaneId) (i : Nat) :
    s.slotStart n i = { s with
      rings := (s.slotStart n i).rings, notices := (s.slotStart n i).notices, chans := (s.slotStart n i).chans,
      lanes := (s.slotStart n i).lanes } := by
  simp only [State.slotStart]
  rw [State.transmitHalf_frame, State.postMark_frame]
  rfl

@[simp] theorem State.smap_slotStart (s : State) (n m : LaneId) (i : Nat) : (s.slotStart n i).smap m = s.smap m := by
  rw [State.slotStart_frame]
  rfl

/-- The lane's record after a slot start: the slot registers loaded, all else kept (R95). -/
theorem State.lane_slotStart_self (s : State) (n : LaneId) (i : Nat) :
    ∃ tx rx, (s.slotStart n i).lane n = (s.lane n).loadSlot tx rx := by
  refine ⟨((s.postMark n i (Bank.entry (s.smap n).liveBank i)).transmitHalf n
    (Bank.entry (s.smap n).liveBank i)).2, (Bank.entry (s.smap n).liveBank i).rxTarget, ?_⟩
  simp only [State.slotStart, State.lane_setLane_self]
  rw [State.transmitHalf_frame, State.postMark_frame]
  rfl

theorem State.lane_slotStart_of_ne (s : State) {n m : LaneId} (i : Nat) (h : m ≠ n) :
    (s.slotStart n i).lane m = s.lane m := by
  simp only [State.slotStart]
  rw [State.lane_setLane_of_ne _ n m _ h, State.transmitHalf_frame, State.postMark_frame]
  rfl

/-! ## Frame starts -/

theorem State.postLock_frame (s : State) (n : LaneId) (k : Option LockKind) :
    s.postLock n k = { s with notices := (s.postLock n k).notices } := by
  cases k <;> rfl

theorem State.exchangeIfPending_frame (s : State) (n : LaneId) :
    s.exchangeIfPending n = { s with
      rings := (s.exchangeIfPending n).rings, maps := (s.exchangeIfPending n).maps,
      notices := (s.exchangeIfPending n).notices } := by
  simp only [State.exchangeIfPending]
  split
  · rw [State.exchange_frame]
  · rfl

/-- Everything a frame start can change (R48, R85). -/
theorem State.frameStart_frame (s : State) (n : LaneId) :
    s.frameStart n = { s with
      rings := (s.frameStart n).rings, notices := (s.frameStart n).notices, chans := (s.frameStart n).chans,
      lanes := (s.frameStart n).lanes, maps := (s.frameStart n).maps } := by
  simp only [State.frameStart]
  rw [State.slotStart_frame, State.exchangeIfPending_frame, State.postLock_frame]
  rfl

/-- The lane's record after a frame start (R48, R95). -/
theorem State.lane_frameStart_self (s : State) (n : LaneId) :
    ∃ tx rx, (s.frameStart n).lane n = (s.lane n).openFrame.loadSlot tx rx := by
  obtain ⟨tx, rx, e⟩ := State.lane_slotStart_self
    (((s.setLane n (s.lane n).openFrame).postLock n (s.lane n).lockNotice).exchangeIfPending n) n 0
  refine ⟨tx, rx, ?_⟩
  simp only [State.frameStart]
  rw [e, State.exchangeIfPending_frame, State.postLock_frame]
  exact congrArg (Lane.loadSlot · tx rx) (State.lane_setLane_self s n _)

theorem State.lane_frameStart_of_ne (s : State) {n m : LaneId} (h : m ≠ n) :
    (s.frameStart n).lane m = s.lane m := by
  simp only [State.frameStart]
  rw [State.lane_slotStart_of_ne _ 0 h, State.exchangeIfPending_frame, State.postLock_frame]
  exact State.lane_setLane_of_ne s n m _ h

theorem State.frameStartSampled_frame (s : State) (n : LaneId) :
    s.frameStartSampled n = { s with
      rings := (s.frameStart n).rings, notices := (s.frameStart n).notices, chans := (s.frameStart n).chans,
      lanes := (s.frameStartSampled n).lanes, maps := (s.frameStart n).maps } := by
  simp only [State.frameStartSampled]
  rw [State.frameStart_frame]
  rfl

/-! ## Lock and entry to HUNT -/

/-- Everything a lock can change (R60). -/
theorem State.lock_frame (s : State) (n : LaneId) (k : LockKind) :
    s.lock n k = { s with
      rings := (s.lock n k).rings, notices := (s.lock n k).notices, chans := (s.lock n k).chans,
      lanes := (s.lock n k).lanes, maps := (s.lock n k).maps } := by
  simp only [State.lock]
  split
  · rfl
  · rw [State.frameStartSampled_frame]
    rfl

/-- Everything entry to HUNT can change (R65, R66). -/
theorem State.enterHunt_frame (s : State) (n : LaneId) (cause : LossCause) :
    s.enterHunt n cause = { s with
      rings := (s.enterHunt n cause).rings, notices := (s.enterHunt n cause).notices,
      chans := (s.enterHunt n cause).chans, lanes := (s.enterHunt n cause).lanes,
      maps := (s.enterHunt n cause).maps } := by
  simp only [State.enterHunt]
  split
  · rw [State.lock_frame]
    rfl
  · rfl

end Sys2Proof.Machine
end

