-- ==== Sys2Proof/Tests/Slice0.lean ====
section
/-! SUPPORT. Tests: ill-formed commands, single steps on small states, and for each statement with hypotheses
(`test_hyps_<its name>`) concrete states and operands that meet them, clause by clause. -/

namespace Sys2Proof.Tests

open Sys2Proof Sys2Proof.Machine

set_option Elab.async false

/-! ## Small states -/

/-- READY, with an empty notice queue. -/
def ready : State :=
  { State.reset with resetLow := false, clearAddr := 4096, period := 4104, win := { Window.reset with ready := true } }

/-- Start-up at its beginning. -/
def starting : State := { State.reset with resetLow := false }

def args (s : State) (a b c d : Nat) : State :=
  { s with win := { s.win with arg0 := BitVec.ofNat 16 a, arg1 := BitVec.ofNat 16 b, arg2 := BitVec.ofNat 16 c,
                               arg3 := BitVec.ofNat 16 d } }

/-- A ring of two words from word 2r on, of cells of 8 bits, C 8, that holds `level` cells. -/
def ringRecord (r : RingId) (level : Nat) : Ring :=
  let g : Ring := { Ring.afterOpen (2 * r.val) 2 8 with tail := level % 8, level := level }
  { g with zone := g.zoneNow }

def opened (s : State) (r : RingId) (level : Nat) : State := s.setRing r (ringRecord r level)

/-- A ring of two words of cells of 32 bits, C 2. -/
def opened32 (s : State) (r : RingId) (level : Nat) : State :=
  let g : Ring := { Ring.afterOpen (2 * r.val) 2 32 with tail := level % 2, level := level }
  s.setRing r { g with zone := g.zoneNow }

/-- Channel 0 ACTIVE on a seat of ring 0, with a grant and two cells still to move. -/
def active (s : State) (side : Side) (grant : Nat) : State :=
  let t := s.attachAgent (.dma 0) 0 side
  t.setChan 0 { t.chan 0 with state := .active, quantum := 1, tally := 2, grant := grant }

/-- Two slots of 8 bits, no gap: F is 16. -/
def cfg16 : LaneConfig := { LaneConfig.reset with slots := 2, width := 8 }

/-- Lane 0 of a ready part in a frame, with the registers of a QUIET slot. -/
def framed (cfg : LaneConfig) (state : LaneState) (position : Nat) (half : Half) : State :=
  ready.setLane 0 { Lane.reset with cfg := cfg, state := state, position := position, half := half, frameCount := 1 }

def withLane (s : State) (f : Lane → Lane) : State := s.setLane 0 (f (s.lane 0))

/-- Lane 0 with one edit entry. -/
def editing (s : State) (slot : Fin 32) (e : SlotEntry) : State := s.editEntry 0 slot fun _ => e

def after (i : Instr) (s : State) : State :=
  match exec i s with
  | .next t => t
  | .fault _ => s
  | .refused _ => s

/-! ## Ill-formed commands -/

theorem test_illFormed_badCode : (Instr.badCode 0x10).wellFormed = false ∧ (Instr.badCode 0x70).wellFormed = false := by
  decide +kernel

theorem test_illFormed_registerWrite :
    (Instr.registerWrite 0x00 5).wellFormed = false ∧ (Instr.registerWrite 0x36 5).wellFormed = false := by
  decide +kernel

theorem test_illFormed_acknowledgedStrobe : (Instr.acknowledgedStrobe false false none).wellFormed = false := by
  decide +kernel

/-! ## Single steps -/

theorem test_ringOpen : (after .ringOpen (args ready 3 100 4 16)).ring 3 = Ring.afterOpen 100 4 16 ∧
    ((after .ringOpen (args ready 3 100 4 16)).ring 3).cap = 8 := by decide +kernel

theorem test_ringOpen_refusals :
    (after .ringOpen (args ready 16 0 2 8)).win.result = .badParam ∧
    (after .ringOpen (args ready 0 4094 3 8)).win.result = .badParam ∧
    (after .ringOpen (args (opened ready 0 0) 0 9 2 8)).win.result = .ringState ∧
    (after .ringOpen (args (opened ready 0 0) 1 1 2 8)).win.result = .overlap := by decide +kernel

theorem test_ringClose : (after .ringClose (args (opened ready 2 3) 2 0 0 0)).ring 2 = .reset := by decide +kernel

theorem test_ringFlush :
    ((after .ringFlush (args (opened ready 2 8) 2 0 0 0)).ring 2).level = 0 ∧
    (after .ringFlush (args (opened ready 2 8) 2 0 0 0)).notices.queue = [⟨.ringLow, .ring 2, none, 0⟩] := by
  decide +kernel

theorem test_ringMarks : ((after .ringMarks (args (opened ready 2 3) 2 4 5 0)).ring 2).zone = .low := by decide +kernel

theorem test_ringPolicy : ((after .ringPolicy (args (opened ready 2 3) 2 1 1 1)).ring 2).substitute = 0 := by
  decide +kernel

theorem test_ringFill : ((after .ringFill (args (opened ready 2 3) 2 0x1234 5 0)).ring 2).fill = 0x34 := by decide +kernel

theorem test_ringStatus :
    (after .ringStatus (args (opened ready 2 3) 2 0 0 0)).win.rdata0 = 3 ∧
    (after .ringStatus (args (opened ready 2 3) 2 0 0 0)).win.rdata1 = 0x0300 := by decide +kernel

theorem test_ringPeek_empty : (after .ringPeek (args (opened ready 2 3) 2 3 0 0)).win.result = .empty := by decide +kernel

theorem test_attach : (after .attach (args (opened ready 2 3) 0 2 1 0)).pr.attach = some ⟨2, .consumer⟩ := by
  decide +kernel

theorem test_detach :
    (after .detach (args ((opened ready 2 3).attachAgent .pr 2 .consumer) 0 0 0 0)).ring 2 = ringRecord 2 3 := by
  decide +kernel

/-- DETACH takes Attached no and leaves Ring and Seat (log 18). -/
theorem test_detach_record :
    (after .detach (args ((opened ready 2 3).attachAgent .pr 2 .consumer) 0 0 0 0)).pr.record =
      { attached := false, ring := 2, seat := .consumer } := by decide +kernel

theorem test_laneSet : ((after .laneSet (args ready 1 2 32 0)).lane 1).cfg.width = 32 ∧
    (after .laneSet (args ready 1 2 24 0)).win.result = .badParam := by decide +kernel

theorem test_laneStart_follower : ((after .laneStart (args ready 0 0 0 0)).lane 0).state = .arming := by decide +kernel

theorem test_laneStart_master :
    (after .laneStart (args (withLane ready fun l => { l with cfg := { l.cfg with role := .master } }) 0 0 0 0)).notices.queue
      = [⟨.laneLocked, .lane 0, some 1, 0⟩] := by decide +kernel

theorem test_laneStop : (after .laneStop (args (framed cfg16 .running 3 .driven) 0 0 0 0)).win.result = .accepted := by
  decide +kernel

theorem test_mapWrite_mapSwap_inOff :
    let s := after .mapWrite (args (ready.setRing 2 (Ring.afterOpen 0 2 16)) 0 0 0 0x21)
    (after .mapSwap s).win.result = .done ∧ ((after .mapSwap s).ring 2).producer = .held (.lane 0) := by decide +kernel

theorem test_mapConst : (((after .mapConst (args ready 0 5 7 8)).smap 0).editBank[5]).const = 7 := by decide +kernel

theorem test_dmaGo_grants :
    ((after .dmaGo (args ((opened ready 0 3).attachAgent (.dma 0) 0 .consumer) 0 0 0 0)).chan 0).grant = 1 := by
  decide +kernel

theorem test_noticeMask : (after .noticeMask (args ready 0 0 0 0)).notices.mask = 0x30000 := by decide +kernel

/-- The command that meets the reset pin, the reset taken first, answers NOT_READY; one behind the pin is no access, and
so is one where the pin is low already (log 30). -/
theorem test_command_meets_reset_pin :
    (after (.reset (some 0x10)) ready).win = { Window.reset with cmd := 0x10, result := .notReady } ∧
    (after (.reset (some 0x10)) starting).win.result = .notReady ∧
    (after (.reset (some 0x70)) ready).win = Window.reset ∧
    after .ringOpen (after (.reset none) ready) = after (.reset none) ready ∧
    (after (.reset (some 0x10)) (after (.reset none) ready)).win = Window.reset := by decide +kernel

theorem test_softReset : (after .softReset ready).win.ready = false := by decide +kernel

theorem test_badCode : (after (.badCode 0x19) ready).win.result = .badCode := by decide +kernel

theorem test_pwDataLoWrite_prDataLoRead :
    let s := after (.pwDataLoWrite 0x1234) ((opened ready 0 0).attachAgent .pw 0 .producer)
    (s.ring 0).level = 1 ∧ (after .prDataLoRead (s.attachAgent .pr 0 .consumer)).readData = 0x34 := by decide +kernel

theorem test_prFlagsWrite :
    (after (.prFlagsWrite 2) { ready with pr := { ready.pr with stray := true, underflow := true } }).pr.flagsWord = 1 := by
  decide +kernel

theorem test_dnDataLoRead : ((after (.dnDataLoRead 0) (active (opened ready 0 3) .consumer 1)).chan 0).tally = 1 ∧
    ((after (.dnDataLoRead 0) (active (opened ready 0 3) .consumer 1)).chan 0).gap = true := by decide +kernel

theorem test_dnDataLoWrite_stray :
    (after (.dnDataLoWrite 0 9) (active (opened ready 0 3) .producer 0)).notices.queue = [⟨.dmaFault, .dma 0, none, 0⟩] := by
  decide +kernel

theorem test_noticePop_carries_lost :
    (after (.noticePop 0) { ready with notices := { ready.notices with
        queue := List.replicate 32 ⟨.slotMark, .lane 0, some 1, 0⟩, lost := 9 } }).notices.queue.getLast?
      = some ⟨.noticeLost, .part, none, 9⟩ := by decide +kernel

theorem test_startupEnd : (after .startupEnd starting).globalStatusWord = 1 := by decide +kernel

theorem test_lock :
    let s := (withLane (framed cfg16 .arming 0 .sampled) fun l =>
      { l with goodSyncs := 1, lastSync := some 16, arrivalDue := true })
    ((after (.syncArrival 0) s).lane 0).state = .running ∧
    (after (.syncArrival 0) s).notices.queue = [⟨.laneLocked, .lane 0, some 2, 0⟩] := by decide +kernel

theorem test_syncCheckPoint_missed :
    (after (.syncCheckPoint 0) (withLane (framed cfg16 .running 0 .sampled) fun l =>
        { l with checkDue := true, between := true, missedRun := 1 })).notices.queue
      = [⟨.laneLost, .lane 0, some 1, 2⟩] := by decide +kernel

theorem test_slotEnd :
    let s := (withLane (opened (framed cfg16 .running 7 .sampled) 0 0) fun l =>
      { l with rxBits := 8, rxCell := 0xA5, rxTarget := .ring 0, txCell := .cell 1, txBits := 8, txPin := .high })
    (after (.slotEnd 0) s).mem = [(0, 0xA5)] ∧ ((after (.slotEnd 0) s).lane 0).txCell = .quiet ∧
      ((after (.slotEnd 0) s).lane 0).txPin = .high := by decide +kernel

theorem test_driveEdge :
    ((after (.driveEdge 0) (withLane (framed cfg16 .running 8 .opening) fun l => { l with txCell := .cell 0x80 })).lane 0).txPin
      = .high := by decide +kernel

/-- The drive edge that closes a frame with SYNC_EARLY off keeps the pin's level (log 28). -/
theorem test_driveEdge_closesFrame :
    let l := (after (.driveEdge 0) (withLane (framed cfg16 .running 15 .sampled) fun l => { l with txPin := .high })).lane 0
    l.between = true ∧ l.txPin = .high := by decide +kernel

theorem test_samplingEdge :
    ((after (.samplingEdge 0 true false) (framed cfg16 .running 0 .driven)).lane 0).rxCell = 0x80 := by decide +kernel

/-! ## Ring records that are well formed -/

theorem ringsOk_ready : ready.RingsOk := by
  unfold State.RingsOk Ring.Ok
  decide +kernel

theorem ringsOk_opened : ∀ r, (opened ready r 0).RingsOk := by
  unfold State.RingsOk Ring.Ok
  decide +kernel

theorem ringsOk_opened_levels : (opened ready 0 1).RingsOk ∧ (opened (opened ready 0 7) 1 0).RingsOk ∧
    (opened (opened ready 0 8) 1 0).RingsOk := by
  refine ⟨?_, ?_, ?_⟩ <;> unfold State.RingsOk Ring.Ok <;> decide +kernel

theorem regionsDisjoint_opened : (opened (opened ready 0 7) 1 0).RegionsDisjoint ∧
    (opened (opened ready 0 8) 1 0).RegionsDisjoint := by
  unfold State.RegionsDisjoint
  decide +kernel

/-! ## Hypotheses that hold together: queue, resets and the window -/

theorem test_hyps_EmptyQueueStepIsOnePeriod :
    State.reset.pending = [] ∧ State.reset.resetLow = true ∧ ready.pending = [] ∧ ready.win.ready = true ∧
    starting.pending = [] ∧ starting.resetLow = false ∧ starting.win.ready = false ∧ starting.period < 8 ∧
    (let s := { starting with period := 8 }; s.pending = [] ∧ 8 ≤ s.period ∧ s.clearAddr < 4095 ∧ s.MemoryOk) ∧
    (let s := { starting with period := 4102, clearAddr := 4094 }; 8 ≤ s.period ∧ s.clearAddr < 4095 ∧ s.MemoryOk) ∧
    (let s := { starting with period := 4103, clearAddr := 4095 }; 8 ≤ s.period ∧ 4095 ≤ s.clearAddr) := by
  unfold State.MemoryOk
  decide +kernel

theorem test_hyps_StartupEndsInPeriod4103 :
    starting.resetLow = false ∧ starting.win.ready = false ∧ starting.pending = [] ∧ starting.clearAddr = 0 ∧
    starting.period = 0 := by decide +kernel

theorem test_hyps_ResetsGiveEveryBlockItsResetValues :
    ready.resetLow = false ∧ (0x10 : Word) ≠ 0x70 ∧ State.reset.resetLow = true := by
  decide +kernel

theorem test_hyps_StartupBeginsAndEnds :
    State.reset.resetLow = true ∧ starting.resetLow = false ∧ starting.win.ready = false ∧ starting.notices = .reset := by
  decide +kernel

theorem test_hyps_WindowRefusesByStateAndCode :
    windowCode .ringOpen = some 0x10 ∧ Instr.ringOpen.wellFormed = true ∧
    windowCode .noticeMask = some 0x60 ∧ Instr.noticeMask.wellFormed = true ∧
    windowCode (.badCode 0) = some 0 ∧ (Instr.badCode 0).wellFormed = true ∧
    starting.resetLow = false ∧ starting.win.ready = false ∧
    ready.Accepts ∧ (Instr.badCode 0x0F).wellFormed = true ∧ (Instr.badCode 0xFFFF).wellFormed = true := by
  decide +kernel

theorem test_hyps_RefusedCommandsChangeNoState :
    ∃ t, exec .ringOpen (args ready 16 0 0 0) = .next t ∧ windowCode .ringOpen = some 0x10 ∧
      Instr.ringOpen.wellFormed = true ∧ (args ready 16 0 0 0).Accepts ∧
      t.win.result ≠ .done ∧ t.win.result ≠ .accepted ∧ Instr.ringOpen ≠ .mapSwap :=
  ⟨_, rfl, by decide +kernel⟩

theorem test_hyps_PlainRegisterWritesStoreOrAreIgnored :
    ready.resetLow = false ∧ starting.resetLow = false ∧ (Instr.registerWrite 1 7).wellFormed = true ∧
    (Instr.registerWrite 4 7).wellFormed = true ∧ (Instr.registerWrite 5 7).wellFormed = true ∧
    (Instr.registerWrite 0x7F 7).wellFormed = true := by decide +kernel

theorem test_hyps_PlainRegisterWritesStoreOrAreIgnored_shown :
    ready.notices.queue = [] ∧ ready.pr.attach = none ∧ ready.pw.attach = none ∧
    (let s := after .startupEnd starting
     s.notices.queue.length ≤ 32 ∧ s.notices.queue = ⟨.startupDone, .part, none, 0⟩ :: []) ∧
    (let s := (opened ready 0 8).attachAgent .pr 0 .consumer
     s.pr.attach = some ⟨0, .consumer⟩ ∧ (s.ring 0).level < 65536) ∧
    (let s := (opened ready 0 8).attachAgent .pw 0 .producer
     s.pw.attach = some ⟨0, .producer⟩ ∧ (s.ring 0).cap < 65536) ∧
    (let s := active (opened32 ready 0 1) .producer 1
     (s.chan 0).form = .addressed ∧ (s.chan 0).attach = some ⟨0, .producer⟩ ∧ (s.ring 0).width = 32 ∧
       (s.chan 0).grant ≤ 16 ∧ (s.chan 1).form = .addressed ∧ (s.chan 1).attach = none) ∧
    (let s := ready.setChan 0 { Channel.reset with form := .acked, grant := 16 }
     (s.chan 0).form = .acked ∧ (s.chan 0).grant ≤ 16) ∧
    (0x24 : RegAddr).toNat ∈ [0x13, 0x24] ∧ (0x7F : RegAddr).toNat ∉ List.range' 0x40 8 := by decide +kernel

theorem test_hyps_StrobesInResetAreNoAccess :
    State.reset.resetLow = true ∧ (windowCode .ringOpen).isSome = true ∧ (windowCode (.badCode 0x6F)).isSome = true ∧
    (false || true) = true := by decide +kernel

/-! ## Rings -/

theorem test_hyps_RingOpenChecksAndOpens :
    ((let s := args ready 16 0 0 0; s.Accepts ∧ 16 ≤ s.win.arg0.toNat) ∧
    (let s := args ready 0 4094 3 8; s.Accepts ∧ ¬s.win.arg1.toNat + s.win.arg2.toNat ≤ 4096) ∧
    (let s := args ready 0 4094 2 8
     s.Accepts ∧ s.win.arg0.toNat = (0 : RingId).val ∧ s.win.arg3.toNat = 8 ∧ 2 ≤ s.win.arg2.toNat ∧
       s.win.arg1.toNat + s.win.arg2.toNat ≤ 4096 ∧ (s.ring 0).state = .closed ∧ ∀ q, (s.ring q).state = .closed) ∧
    (let s := args (opened ready 0 0) 0 9 2 32
     s.Accepts ∧ s.win.arg0.toNat = (0 : RingId).val ∧ s.win.arg3.toNat = 32 ∧ 2 ≤ s.win.arg2.toNat ∧
       s.win.arg1.toNat + s.win.arg2.toNat ≤ 4096 ∧ (s.ring 0).state = .opened) ∧
    (let s := args (opened ready 0 0) 1 1 2 16
     s.Accepts ∧ s.win.arg0.toNat = (1 : RingId).val ∧ s.win.arg3.toNat = 16 ∧ 2 ≤ s.win.arg2.toNat ∧
       s.win.arg1.toNat + s.win.arg2.toNat ≤ 4096 ∧ (s.ring 1).state = .closed ∧ (s.ring 0).state = .opened ∧
       s.win.arg1.toNat ≤ 1 ∧ 1 < s.win.arg1.toNat + s.win.arg2.toNat ∧ (s.ring 0).base ≤ 1 ∧
       1 < (s.ring 0).base + (s.ring 0).length)) ∧
    (args ready 16 0 0 0).RingsOk ∧ (args ready 0 4094 3 8).RingsOk ∧ (args ready 0 4094 2 8).RingsOk ∧
    (args (opened ready 0 0) 0 9 2 32).RingsOk ∧ (args (opened ready 0 0) 1 1 2 16).RingsOk :=
  ⟨by decide +kernel, ringsOk_ready, ringsOk_ready, ringsOk_ready, ringsOk_opened 0, ringsOk_opened 0⟩

theorem test_hyps_RingCloseChecksAndCloses :
    (let s := args ready 16 0 0 0; s.Accepts ∧ 16 ≤ s.win.arg0.toNat) ∧
    (let s := args ready 15 0 0 0; s.Accepts ∧ s.win.arg0.toNat = (15 : RingId).val ∧ (s.ring 15).state = .closed) ∧
    (let s := args ((opened ready 0 0).attachAgent .pr 0 .consumer) 0 0 0 0
     s.Accepts ∧ s.win.arg0.toNat = (0 : RingId).val ∧ (s.ring 0).state = .opened ∧ (s.ring 0).consumer ≠ .free) ∧
    (let s := args (opened ready 0 0) 0 0 0 0
     s.Accepts ∧ s.win.arg0.toNat = (0 : RingId).val ∧ (s.ring 0).state = .opened ∧ (s.ring 0).producer = .free ∧
       (s.ring 0).consumer = .free) := by decide +kernel

theorem test_hyps_RingFlushEmptiesTheRing :
    (let s := args (active (opened ready 0 1) .consumer 1) 0 0 0 0
     s.Accepts ∧ s.win.arg0.toNat = (0 : RingId).val ∧ (s.ring 0).state = .opened ∧
       (s.chan 0).attach = some ⟨0, .consumer⟩ ∧ (s.chan 0).state = .active) ∧
    (let s := args (opened ready 0 8) 0 0 0 0
     s.Accepts ∧ s.win.arg0.toNat = (0 : RingId).val ∧ (s.ring 0).state = .opened ∧
       ∀ ch, (s.chan ch).attach = none) := by decide +kernel

theorem test_hyps_RingSettingsTakeTheirFields :
    (let s := args (opened ready 0 3) 0 7 8 0
     s.Accepts ∧ s.win.arg0.toNat = (0 : RingId).val ∧ (s.ring 0).state = .opened ∧
       s.win.arg1.toNat < s.win.arg2.toNat ∧ s.win.arg2.toNat ≤ (s.ring 0).cap) ∧
    (let s := args (opened ready 0 3) 0 8 9 0
     s.Accepts ∧ s.win.arg0.toNat = (0 : RingId).val ∧ (s.ring 0).state = .opened ∧
       ¬(s.win.arg1.toNat < s.win.arg2.toNat ∧ s.win.arg2.toNat ≤ (s.ring 0).cap)) ∧
    (let s := args (opened ready 0 3) 0 1 1 1
     s.Accepts ∧ s.win.arg1.toNat ≤ 1 ∧ s.win.arg2.toNat ≤ 1 ∧ s.win.arg3.toNat ≤ 1) ∧
    (let s := args (opened ready 0 3) 0 1 1 2; s.Accepts ∧ 1 < s.win.arg3.toNat) := by decide +kernel

theorem test_hyps_RingAndMapCommandsRefuseBadOperands :
    (let s := args ready 16 0 0 0
     s.Accepts ∧ windowCode .ringPeek = some 0x18 ∧ Instr.ringPeek ∈ [Instr.ringFlush, .ringMarks, .ringPolicy, .ringFill, .ringPeek]
       ∧ 16 ≤ s.win.arg0.toNat) ∧
    (let s := args ready 15 0 0 0; s.win.arg0.toNat = (15 : RingId).val ∧ (s.ring 15).state = .closed) ∧
    (let s := args ready 4 0 0 0; s.Accepts ∧ 4 ≤ s.win.arg0.toNat) ∧
    (let s := args ready 3 32 0 0; s.Accepts ∧ 32 ≤ s.win.arg1.toNat) ∧
    (let s := args ready 3 31 7 0; s.Accepts ∧ s.win.arg2.toNat % 4 = 3) ∧
    (let s := args ready 3 1 32 2; s.Accepts ∧ 32 ≤ s.win.arg2.toNat ∧ 2 ≤ s.win.arg3.toNat) := by decide +kernel

theorem test_hyps_RingReadingCommandsAnswerTheRecord :
    (let s := args (opened ready 0 8) 0 0 0 0
     s.Accepts ∧ s.win.arg0.toNat = (0 : RingId).val ∧ (s.ring 0).state = .opened ∧ (s.ring 0).level < 65536 ∧
       s.win.arg1.toNat ≤ 1 ∧ s.win.arg1.toNat < (s.ring 0).level) ∧
    (let s := args (opened ready 0 8) 0 8 0 0; s.Accepts ∧ (s.ring 0).level ≤ s.win.arg1.toNat) ∧
    (let s := args (opened ready 0 8) 0 7 0 0; s.Accepts ∧ s.win.arg1.toNat < (s.ring 0).level) ∧
    (let s := args ready 15 1 0 0
     s.Accepts ∧ s.win.arg0.toNat = (15 : RingId).val ∧ (s.ring 15).state = .closed ∧ s.win.arg1.toNat ≤ 1) ∧
    (let s := args ready 16 2 0 0; s.Accepts ∧ 16 ≤ s.win.arg0.toNat ∧ 1 < s.win.arg1.toNat) ∧
    (let s := args (opened32 ready 0 2) 0 1 0 0
     s.Accepts ∧ (s.ring 0).width = 32 ∧ s.win.arg1.toNat < (s.ring 0).level) := by decide +kernel

theorem test_hyps_StoredAppendPutsTheCellLast :
    let s := opened (opened ready 0 7) 1 0
    s.MemoryOk ∧ s.RingsOk ∧ s.RegionsDisjoint ∧ (s.ring 0).state = .opened ∧ (s.ring 0).level < (s.ring 0).cap :=
  ⟨by unfold State.MemoryOk; decide +kernel, ringsOk_opened_levels.2.1, regionsDisjoint_opened.1, by decide +kernel,
    by decide +kernel⟩

theorem test_hyps_RemovalTakesTheFirstCell :
    let s := opened ready 0 1
    s.RingsOk ∧ (s.ring 0).state = .opened ∧ 0 < (s.ring 0).level ∧ (s.ring 0).prime = false :=
  ⟨ringsOk_opened_levels.1, by decide +kernel, by decide +kernel, by decide +kernel⟩

theorem test_hyps_RemoveClaimsThatRemoveNothing :
    (let s := opened ready 0 0; (s.ring 0).state = .opened ∧ (s.ring 0).level = 0 ∧ (s.ring 0).prime = false) ∧
    (let s := ready.setRing 0 { ringRecord 0 0 with prime := true }
     (s.ring 0).state = .opened ∧ (s.ring 0).prime = true ∧ (s.ring 0).primed = false) := by decide +kernel

theorem test_hyps_FullRingAnswersByClaimantAndPolicy :
    let s := opened (opened ready 0 8) 1 0
    s.MemoryOk ∧ s.RingsOk ∧ s.RegionsDisjoint ∧ (s.ring 0).state = .opened ∧ (s.ring 0).level = (s.ring 0).cap :=
  ⟨by unfold State.MemoryOk; decide +kernel, ringsOk_opened_levels.2.2, regionsDisjoint_opened.2, by decide +kernel,
    by decide +kernel⟩

theorem test_hyps_LevelReportsEvaluateRequests :
    (let s := active (opened ready 0 1) .consumer 0
     (s.chan 0).attach = some ⟨0, .consumer⟩ ∧ (s.chan 0).state = .active ∧ (s.chan 0).grant = 0 ∧ (s.chan 0).want ≤ 1) ∧
    (ready.chan 0).attach = none := by decide +kernel

/-! ## Seats -/

theorem test_hyps_AttachChecksAndTakesTheSeat :
    (let s := args ready 4 0 0 0; s.Accepts ∧ ¬s.win.arg0.toNat ≤ 3) ∧
    (let s := args ready 0 15 0 0; s.Accepts ∧ s.win.arg0.toNat = 0 ∧ s.win.arg2.toNat = 0) ∧
    (let s := args ready 3 15 1 0
     s.Accepts ∧ s.win.arg0.toNat = 2 + (1 : ChanId).val ∧ s.win.arg1.toNat = (15 : RingId).val ∧
       s.win.arg2.toNat = 1 ∧ (s.ring 15).state = .closed) ∧
    (let s := args (opened ready 0 0) 1 0 0 0
     s.Accepts ∧ s.win.arg0.toNat = 1 ∧ s.win.arg1.toNat = (0 : RingId).val ∧
       s.win.arg2.toNat = 0 ∧ (s.ring 0).state = .opened ∧ s.attachOf .pw = none ∧
       (s.ring 0).seat .producer = .free) ∧
    (let s := args ((opened ready 0 0).attachAgent .pw 0 .producer) 1 0 0 0
     s.win.arg0.toNat = 1 ∧ (s.ring 0).state = .opened ∧ s.attachOf .pw ≠ none) ∧
    (let s := args ((opened ready 0 0).attachAgent .pw 0 .producer) 2 0 0 0
     s.win.arg0.toNat = 2 + (0 : ChanId).val ∧ (s.ring 0).state = .opened ∧ s.attachOf (.dma 0) = none ∧
       (s.ring 0).seat .producer ≠ .free) := by decide +kernel

theorem test_hyps_DetachChecksAndFreesTheSeat :
    (let s := args ready 4 0 0 0; s.Accepts ∧ 4 ≤ s.win.arg0.toNat) ∧
    (let s := args ready 3 0 0 0; s.Accepts ∧ s.win.arg0.toNat = 2 + (1 : ChanId).val ∧ s.attachOf (.dma 1) = none) ∧
    (let s := args (active (opened ready 0 1) .consumer 0) 2 0 0 0
     s.Accepts ∧ s.win.arg0.toNat = 2 + (0 : ChanId).val ∧ s.attachOf (.dma 0) = some ⟨0, .consumer⟩ ∧
       (s.chan 0).state ≠ .idle) ∧
    (let s := args ((opened ready 0 1).attachAgent (.dma 0) 0 .consumer) 2 0 0 0
     s.Accepts ∧ s.win.arg0.toNat = 2 + (0 : ChanId).val ∧ s.attachOf (.dma 0) = some ⟨0, .consumer⟩ ∧
       ∀ ch, Agent.dma 0 = .dma ch → (s.chan ch).state = .idle) := by decide +kernel

/-! ## Lanes -/

theorem test_hyps_LaneSetChecksAndWritesOneParameter :
    (let s := args ready 4 0 0 0; s.Accepts ∧ 4 ≤ s.win.arg0.toNat) ∧
    (let s := args ready 0 12 0 0; s.Accepts ∧ 12 ≤ s.win.arg1.toNat) ∧
    (let s := args ready 0 1 33 0; s.Accepts ∧ s.win.arg1.toNat = 1 ∧ 32 < s.win.arg2.toNat) ∧
    (let s := args (framed cfg16 .running 0 .sampled) 0 11 255 0
     s.Accepts ∧ s.win.arg0.toNat = (0 : LaneId).val ∧ s.win.arg1.toNat = 11 ∧ 1 ≤ s.win.arg2.toNat ∧
       s.win.arg2.toNat ≤ 255 ∧ (s.lane 0).state ≠ .off) ∧
    (let s := args (ready.setRing 0 { ringRecord 0 0 with producer := .held (.lane 3) }) 3 1 32 0
     s.Accepts ∧ s.win.arg0.toNat = (3 : LaneId).val ∧ s.win.arg1.toNat = 1 ∧ 1 ≤ s.win.arg2.toNat ∧
       s.win.arg2.toNat ≤ 32 ∧ (s.lane 3).state = .off ∧ (s.ring 0).seat .producer = .held (.lane 3)) := by decide +kernel

theorem test_hyps_LaneSetChecksAndWritesOneParameter_written :
    let s := args ready 3 1 32 0
    s.Accepts ∧ s.win.arg0.toNat = (3 : LaneId).val ∧ (s.win.arg1.toNat = 1 ∧ 1 ≤ s.win.arg2.toNat ∧
      s.win.arg2.toNat ≤ 32) ∧ (s.lane 3).state = .off ∧ (s.smap 3).swapPending = false ∧
      ¬∃ r side, (s.ring r).seat side = .held (.lane 3) ∨ (s.ring r).seat side = .reserved 3 := by
  refine ⟨by decide +kernel, by decide +kernel, by decide +kernel, by decide +kernel, by decide +kernel, ?_⟩
  rintro ⟨r, side, h⟩
  cases side
  · exact absurd h ((by decide +kernel : ∀ r, ¬(((args ready 3 1 32 0).ring r).seat .producer = .held (.lane 3) ∨
      ((args ready 3 1 32 0).ring r).seat .producer = .reserved 3)) r)
  · exact absurd h ((by decide +kernel : ∀ r, ¬(((args ready 3 1 32 0).ring r).seat .consumer = .held (.lane 3) ∨
      ((args ready 3 1 32 0).ring r).seat .consumer = .reserved 3)) r)

theorem test_hyps_LaneStartArmsAFollowerAndRunsAMaster :
    (let s := args ready 4 0 0 0; s.Accepts ∧ 4 ≤ s.win.arg0.toNat) ∧
    (let s := args ready 3 0 0 0
     s.Accepts ∧ s.win.arg0.toNat = (3 : LaneId).val ∧ (s.lane 3).state = .off ∧ (s.lane 3).cfg.role = .follower) ∧
    (let s := args (framed cfg16 .running 0 .driven) 0 0 0 0
     s.Accepts ∧ s.win.arg0.toNat = (0 : LaneId).val ∧ (s.lane 0).state ≠ .off) ∧
    (let s := args (withLane ready fun l => { l with cfg := { l.cfg with role := .master } }) 0 0 0 0
     s.Accepts ∧ s.win.arg0.toNat = (0 : LaneId).val ∧ (s.lane 0).state = .off ∧ (s.lane 0).cfg.role = .master ∧
       (s.smap 0).swapPending = false ∧ (s.smap 0).liveBank[0].txKind ≠ .ring ∧ (s.lane 0).cfg.syncEarly = false ∧
       0 < (s.lane 0).cfg.slots * (s.lane 0).cfg.width) ∧
    (let s := args (withLane ready fun l => { l with cfg := { cfg16 with role := .master, syncEarly := true } }) 0 0 0 0
     (s.lane 0).state = .off ∧ (s.lane 0).cfg.syncEarly = true ∧
       (s.lane 0).cfg.slots * (s.lane 0).cfg.width + (s.lane 0).cfg.gap ≠ 1) := by decide +kernel

theorem test_hyps_LaneStopAndAbortActByState :
    (let s := args ready 4 0 0 0; s.Accepts ∧ 4 ≤ s.win.arg0.toNat) ∧
    (let s := args ready 3 0 0 0; s.Accepts ∧ s.win.arg0.toNat = (3 : LaneId).val ∧ (s.lane 3).state = .off) ∧
    (let s := args (framed cfg16 .running 0 .driven) 0 0 0 0
     s.Accepts ∧ s.win.arg0.toNat = (0 : LaneId).val ∧ (s.lane 0).state = .running) ∧
    (let s := args (framed cfg16 .arming 0 .sampled) 0 0 0 0; s.Accepts ∧ (s.lane 0).state = .arming) ∧
    (let s := args (framed cfg16 .hunt 0 .sampled) 0 0 0 0; s.Accepts ∧ (s.lane 0).state = .hunt) ∧
    (let s := args (framed cfg16 .stopping 0 .driven) 0 0 0 0; s.Accepts ∧ (s.lane 0).state = .stopping) := by
  decide +kernel

/-! ## Maps -/

/-- A swap is pending on lane 0. -/
def pendingSwap (s : State) : State := s.setSmap 0 { s.smap 0 with swapPending := true }

theorem test_hyps_EditCommandsChangeTheEditBank :
    (let s := args ready 0 31 2 1
     s.Accepts ∧ s.win.arg0.toNat = (0 : LaneId).val ∧ windowCode .mapWrite = some 0x40 ∧
       Instr.mapWrite ∈ [Instr.mapWrite, .mapConst, .mapClear, .mapCopy] ∧ s.win.arg1.toNat < 32 ∧
       s.win.arg2.toNat % 4 ≠ 3 ∧ (s.smap 0).swapPending = false) ∧
    (let s := args (pendingSwap ready) 0 31 2 1; s.Accepts ∧ (s.smap 0).swapPending = true) := by decide +kernel

theorem test_hyps_MapReadAnswersTheEntry :
    (let s := args ready 3 1 31 0
     s.Accepts ∧ s.win.arg0.toNat = (3 : LaneId).val ∧ s.win.arg2.toNat = (31 : Fin 32).val ∧ s.win.arg1.toNat = 1 ∧
       s.win.arg3.toNat = 0 ∧ (s.smap 3).swapPending = false) ∧
    (let s := args ready 3 0 31 1; s.Accepts ∧ s.win.arg1.toNat ≤ 1 ∧ s.win.arg3.toNat = 1) := by decide +kernel

theorem test_hyps_MapSwapValidatesTheEditBank :
    (let s := args (framed cfg16 .stopping 0 .driven) 0 0 0 0
     s.Accepts ∧ s.win.arg0.toNat = (0 : LaneId).val ∧ (s.lane 0).cfg.slots ≤ 32 ∧ (s.lane 0).state = .stopping) ∧
    (let s := args (pendingSwap (framed cfg16 .hunt 0 .sampled)) 0 0 0 0
     s.Accepts ∧ (s.lane 0).state ≠ .stopping ∧ (s.smap 0).swapPending = true) ∧
    (let s := args (editing ready 0 { SlotEntry.reset with txKind := .ring, txRing := 4 }) 0 0 0 0
     s.Accepts ∧ s.win.arg0.toNat = (0 : LaneId).val ∧ (s.lane 0).cfg.slots ≤ 32 ∧ (s.lane 0).state ≠ .stopping ∧
       (s.smap 0).swapPending = false ∧ (0 : Fin 32).val < (s.lane 0).cfg.slots ∧ (∀ j : Fin 32, ¬j < 0) ∧
       ((s.smap 0).editBank[0]).names .consumer = some 4 ∧ (s.ring 4).state = .closed) ∧
    (let s := args (editing (opened ready 4 0) 7 { SlotEntry.reset with rxKind := .ring, rxRing := 4 }) 0 0 0 0
     s.Accepts ∧ (7 : Fin 32).val < (s.lane 0).cfg.slots ∧
       (∀ j : Fin 32, j < 7 → ((s.smap 0).editBank[j]).names .consumer = none ∧
         ((s.smap 0).editBank[j]).names .producer = none) ∧
       ((s.smap 0).editBank[7]).names .consumer = none ∧ ((s.smap 0).editBank[7]).names .producer = some 4 ∧
       (s.ring 4).state = .opened ∧ (s.ring 4).width ≠ (s.lane 0).cfg.width) := by decide +kernel

/-- The entries 0..N−1 of lane 0's edit bank pass the three tests of R83, written out. -/
abbrev EditBankPasses (s : State) : Prop :=
  let test (r : RingId) (side : Side) : Option Result :=
    if (s.ring r).state = .closed then some .badMap
    else if (s.ring r).width ≠ (s.lane 0).cfg.width then some .widthMismatch
    else if (s.ring r).seat side = .free ∨ (s.ring r).seat side = .held (.lane 0) then none
    else some .seatBusy
  ∀ i : Fin 32, i.val < (s.lane 0).cfg.slots →
    (∀ r, (if ((s.smap 0).editBank[i]).txKind = .ring then some ((s.smap 0).editBank[i]).txRing else none) = some r →
      test r .consumer = none) ∧
    (∀ r, (if ((s.smap 0).editBank[i]).rxKind = .ring then some ((s.smap 0).editBank[i]).rxRing else none) = some r →
      test r .producer = none)

/-- Validation ends with entry N − 1: an entry N that names a CLOSED ring takes no part. -/
theorem test_mapSwap_ignores_entry_N :
    let s := args (editing (framed cfg16 .hunt 0 .sampled) 2 { SlotEntry.reset with rxKind := .ring, rxRing := 4 }) 0 0 0 0
    (after .mapSwap s).win.result = .accepted ∧ ((after .mapSwap s).ring 4).producer = .free := by decide +kernel

theorem test_hyps_MapSwapReservesOrExchanges_waiting :
    let s := args (editing (opened (framed cfg16 .hunt 0 .sampled) 4 0) 1
      { SlotEntry.reset with rxKind := .ring, rxRing := 4 }) 0 0 0 0
    s.Accepts ∧ s.win.arg0.toNat = (0 : LaneId).val ∧ (s.lane 0).state ≠ .stopping ∧ (s.lane 0).state ≠ .off ∧
      (s.smap 0).swapPending = false ∧ EditBankPasses s ∧ (s.ring 4).seat .producer = .free := by decide +kernel

/-- A ring of cells of 16 bits that slot 1 of lane 0's edit bank names. -/
def swapInOffState : State :=
  args (editing (ready.setRing 4 (Ring.afterOpen 0 2 16)) 1 { SlotEntry.reset with rxKind := .ring, rxRing := 4 }) 0 0 0 0

theorem test_hyps_MapSwapReservesOrExchanges_inOff :
    let s := swapInOffState
    s.Accepts ∧ s.win.arg0.toNat = (0 : LaneId).val ∧ (s.lane 0).state ≠ .stopping ∧ (s.lane 0).state = .off ∧
      (s.smap 0).swapPending = false ∧ EditBankPasses s ∧ ∀ r side, (s.ring r).seat side ≠ .reserved 0 := by
  refine ⟨by decide +kernel, by decide +kernel, by decide +kernel, by decide +kernel, by decide +kernel,
    by decide +kernel, fun r side => ?_⟩
  cases side
  · exact (by decide +kernel : ∀ r, (swapInOffState.ring r).seat .producer ≠ .reserved 0) r
  · exact (by decide +kernel : ∀ r, (swapInOffState.ring r).seat .consumer ≠ .reserved 0) r

theorem test_hyps_MapCancelEndsAPendingSwap :
    (let s := args ready 4 0 0 0; s.Accepts ∧ 4 ≤ s.win.arg0.toNat) ∧
    (let s := args ready 3 0 0 0; s.Accepts ∧ s.win.arg0.toNat = (3 : LaneId).val ∧ (s.smap 3).swapPending = false) ∧
    (let s := args (pendingSwap (framed cfg16 .running 0 .driven)) 0 0 0 0
     s.Accepts ∧ s.win.arg0.toNat = (0 : LaneId).val ∧ (s.smap 0).swapPending = true) := by decide +kernel

/-! ## Channels and notices -/

theorem test_hyps_DmaSetChecksAndWritesOneSetting :
    (let s := args ready 2 0 0 0; s.Accepts ∧ 2 ≤ s.win.arg0.toNat) ∧
    (let s := args ready 1 1 3 0; s.Accepts ∧ dmaSettingOk s.win.arg1.toNat s.win.arg2.toNat = false) ∧
    (let s := args ready 1 2 65535 0
     s.Accepts ∧ s.win.arg0.toNat = (1 : ChanId).val ∧ s.win.arg1.toNat = 2 ∧ 1 ≤ s.win.arg2.toNat ∧
       (s.chan 1).state = .idle) ∧
    (let s := args (active (opened ready 0 1) .consumer 0) 0 1 16 0
     s.Accepts ∧ s.win.arg0.toNat = (0 : ChanId).val ∧ s.win.arg1.toNat = 1 ∧ s.win.arg2.toNat = 16 ∧
       (s.chan 0).state ≠ .idle) := by decide +kernel

theorem test_hyps_DmaGoStartsAndHaltEndsARun :
    (let s := args ready 2 0 0 0; s.Accepts ∧ 2 ≤ s.win.arg0.toNat) ∧
    (let s := args ready 1 0 0 0
     s.Accepts ∧ s.win.arg0.toNat = (1 : ChanId).val ∧ (s.chan 1).attach = none ∧ (s.chan 1).state = .idle) ∧
    (let s := args (active (opened ready 0 1) .consumer 0) 0 0 0 0
     s.Accepts ∧ s.win.arg0.toNat = (0 : ChanId).val ∧ (s.chan 0).attach ≠ none ∧ (s.chan 0).state ≠ .idle) ∧
    (let s := args ((opened ready 0 1).attachAgent (.dma 0) 0 .consumer) 0 0 0 0
     s.Accepts ∧ s.win.arg0.toNat = (0 : ChanId).val ∧ (s.chan 0).attach = some ⟨0, .consumer⟩ ∧
       (s.chan 0).state = .idle) := by decide +kernel

theorem test_hyps_NoticeMaskKeepsTwoKindsEnabled : (args ready 0xFFFF 0xFFFF 0 0).Accepts := by decide +kernel

theorem test_hyps_PostsAndPopsOfTheNoticeQueue :
    (let u := { NoticeUnit.reset with mask := 0x30000 }; u.mask.getLsbD NoticeKind.slotMark.code = false) ∧
    (let u := { NoticeUnit.reset with queue := List.replicate 31 (⟨.slotMark, .lane 0, some 1, 0⟩ : Notice) }
     u.mask.getLsbD NoticeKind.slotMark.code = true ∧ u.queue.length ≤ 31) ∧
    (let u := { NoticeUnit.reset with queue := List.replicate 32 (⟨.slotMark, .lane 0, some 1, 0⟩ : Notice) }
     u.mask.getLsbD NoticeKind.slotMark.code = true ∧ 32 ≤ u.queue.length) ∧
    (ready.resetLow = false ∧ ready.notices.queue = []) ∧
    (let s := after .startupEnd starting
     s.resetLow = false ∧ s.notices.queue = ⟨.startupDone, .part, none, 0⟩ :: []) := by decide +kernel

/-! ## Ports -/

theorem test_hyps_PrReadRemovesOrFaults :
    (ready.resetLow = false ∧ ready.pr.attach = none) ∧
    (let s := (opened ready 0 1).attachAgent .pr 0 .consumer
     s.resetLow = false ∧ s.pr.attach = some ⟨0, .consumer⟩ ∧ (s.ring 0).state = .opened ∧ 0 < (s.ring 0).level) ∧
    (let s := (opened32 ready 0 0).attachAgent .pr 0 .consumer
     s.resetLow = false ∧ s.pr.attach = some ⟨0, .consumer⟩ ∧ (s.ring 0).state = .opened ∧ (s.ring 0).level = 0) := by
  decide +kernel

theorem test_hyps_PwWritesStageAndAppend :
    (ready.resetLow = false ∧ ready.pw.attach = none) ∧
    (let s := (opened32 ready 0 1).attachAgent .pw 0 .producer
     s.resetLow = false ∧ s.pw.attach = some ⟨0, .producer⟩ ∧ (s.ring 0).state = .opened ∧
       (s.ring 0).level < (s.ring 0).cap) ∧
    (let s := (opened ready 0 8).attachAgent .pw 0 .producer
     s.resetLow = false ∧ s.pw.attach = some ⟨0, .producer⟩ ∧ (s.ring 0).state = .opened ∧
       (s.ring 0).level = (s.ring 0).cap) := by decide +kernel

theorem test_hyps_FlagWritesClearTheFlagsWritten : ready.resetLow = false := by decide +kernel

/-! ## Data accesses of channels -/

/-- Channel 0 in ACKED form with a phase. -/
def acked (s : State) (p : Phase) : State := s.setChan 0 { s.chan 0 with form := .acked, phase := p }

/-- A strobe inside a grant moves a cell: a write at Phase SECOND of a 32-bit ring, a read of an 8-bit ring. -/
theorem test_acknowledgedStrobe_movesACell :
    (let t := after (.acknowledgedStrobe true false (some 7)) (acked (active (opened32 ready 0 1) .producer 1) .second)
     (t.ring 0).level = 2 ∧ (t.chan 0).phase = .first ∧ (t.chan 0).tally = 1) ∧
    (let t := after (.acknowledgedStrobe true false none) (acked (active (opened ready 0 3) .consumer 1) .first)
     (t.ring 0).level = 2 ∧ (t.chan 0).phase = .first ∧ (t.chan 0).tally = 1) := by decide +kernel

theorem test_hyps_ReadChannelAccessMovesACell_acked :
    (let s := acked (active (opened ready 0 1) .consumer 1) .second
     s.resetLow = false ∧ (s.chan 0).attach = some ⟨0, .consumer⟩ ∧ (s.chan 0).form = .acked ∧
       (s.chan 0).state = .active ∧ 0 < (s.chan 0).grant ∧ (s.ring 0).state = .opened ∧ 0 < (s.ring 0).level ∧
       (s.ring 0).width ≠ 32) ∧
    (let s := acked (active (opened32 ready 0 2) .consumer 1) .first
     s.resetLow = false ∧ (s.chan 0).attach = some ⟨0, .consumer⟩ ∧ (s.chan 0).form = .acked ∧
       (s.chan 0).state = .active ∧ 0 < (s.chan 0).grant ∧ (s.ring 0).state = .opened ∧ 0 < (s.ring 0).level ∧
       (s.ring 0).width = 32 ∧ (s.chan 0).phase = .first) := by decide +kernel

theorem test_hyps_WriteChannelAccessMovesACell_acked :
    (let s := acked (active (opened ready 0 7) .producer 1) .first
     s.resetLow = false ∧ (s.chan 0).attach = some ⟨0, .producer⟩ ∧ (s.chan 0).form = .acked ∧
       (s.chan 0).state = .active ∧ 0 < (s.chan 0).grant ∧ (s.ring 0).state = .opened ∧
       (s.ring 0).level < (s.ring 0).cap ∧ (s.ring 0).width ≠ 32) ∧
    (let s := acked (active (opened32 ready 0 1) .producer 1) .second
     s.resetLow = false ∧ (s.chan 0).attach = some ⟨0, .producer⟩ ∧ (s.chan 0).form = .acked ∧
       (s.chan 0).state = .active ∧ 0 < (s.chan 0).grant ∧ (s.ring 0).state = .opened ∧
       (s.ring 0).level < (s.ring 0).cap ∧ (s.ring 0).width = 32 ∧ (s.chan 0).phase = .second) := by decide +kernel

theorem test_hyps_ReadChannelAccessMovesACell :
    let s := active (opened ready 0 1) .consumer 1
    s.resetLow = false ∧ (s.chan 0).attach = some ⟨0, .consumer⟩ ∧ (s.chan 0).form = .addressed ∧
      (s.chan 0).state = .active ∧ 0 < (s.chan 0).grant ∧ (s.ring 0).state = .opened ∧ 0 < (s.ring 0).level := by
  decide +kernel

theorem test_hyps_WriteChannelAccessMovesACell :
    let s := active (opened32 ready 0 1) .producer 1
    s.resetLow = false ∧ (s.chan 0).attach = some ⟨0, .producer⟩ ∧ (s.chan 0).form = .addressed ∧
      (s.chan 0).state = .active ∧ 0 < (s.chan 0).grant ∧ (s.ring 0).state = .opened ∧
      (s.ring 0).level < (s.ring 0).cap := by decide +kernel

theorem test_hyps_AccessesOutsideAGrantMoveNothing :
    (ready.resetLow = false ∧ (ready.chan 1).form = .addressed ∧ (ready.chan 1).attach = none) ∧
    (let s := active (opened ready 0 0) .consumer 0
     s.resetLow = false ∧ (s.chan 0).form = .addressed ∧ (s.chan 0).attach = some ⟨0, .consumer⟩ ∧
       (s.chan 0).state = .active ∧ (s.chan 0).grant = 0) ∧
    (let s := (opened ready 0 0).attachAgent (.dma 0) 0 .consumer
     (s.chan 0).form = .addressed ∧ (s.chan 0).attach = some ⟨0, .consumer⟩ ∧ (s.chan 0).state ≠ .active ∧
       (s.ring 0).width ≠ 32) ∧
    (let s := (opened32 ready 0 0).attachAgent (.dma 0) 0 .producer
     (s.chan 0).form = .addressed ∧ (s.chan 0).attach = some ⟨0, .producer⟩ ∧ (s.chan 0).state ≠ .active ∧
       (s.ring 0).width = 32) ∧
    (let s := active (opened ready 0 1) .producer 1
     (s.chan 0).form = .addressed ∧ (s.chan 0).attach = some ⟨0, .producer⟩ ∧ (s.chan 0).state = .active ∧
       0 < (s.chan 0).grant) ∧
    (let s := active (opened ready 0 1) .consumer 1
     (s.chan 0).attach = some ⟨0, .consumer⟩ ∧ (s.chan 0).state = .active ∧ 0 < (s.chan 0).grant) ∧
    (let s := ready.setChan 0 { ready.chan 0 with form := .acked }
     s.resetLow = false ∧ (s.chan 0).form = .acked ∧ (s.chan 0).attach = none) ∧
    (let s := acked (active (opened ready 0 1) .consumer 0) .first
     (s.chan 0).form = .acked ∧ (s.chan 0).attach = some ⟨0, .consumer⟩ ∧ (s.ring 0).width ≠ 32 ∧
       (s.chan 0).state = .active ∧ (s.chan 0).grant = 0) ∧
    (let s := acked (active (opened32 ready 0 1) .consumer 1) .first
     (s.chan 0).form = .acked ∧ (s.chan 0).attach = some ⟨0, .consumer⟩ ∧ (s.ring 0).width = 32 ∧
       (s.chan 0).phase = .first ∧ (s.chan 0).state = .active ∧ 0 < (s.chan 0).grant) ∧
    (let s := acked ((opened32 ready 0 1).attachAgent (.dma 0) 0 .producer) .second
     (s.chan 0).form = .acked ∧ (s.chan 0).attach = some ⟨0, .producer⟩ ∧ (s.ring 0).width = 32 ∧
       (s.chan 0).phase = .second ∧ (s.chan 0).state ≠ .active) ∧
    (let s := acked (active (opened32 ready 0 1) .producer 1) .second
     (s.chan 0).attach = some ⟨0, .producer⟩ ∧ (s.chan 0).state = .active ∧ 0 < (s.chan 0).grant) := by decide +kernel

theorem test_hyps_AcknowledgedStrobesFollowFormAndPhase :
    (ready.resetLow = false ∧ (ready.chan 0).form = .addressed) ∧
    (let s := acked ready .first; s.resetLow = false ∧ (s.chan 0).form = .acked ∧ (s.chan 0).attach = none) ∧
    (let s := acked (active (opened ready 0 1) .consumer 1) .first
     (s.chan 0).attach = some ⟨0, .consumer⟩ ∧ (s.chan 0).form = .acked ∧ (s.ring 0).width ≠ 32) ∧
    (let s := acked (active (opened32 ready 0 1) .consumer 1) .first
     (s.chan 0).attach = some ⟨0, .consumer⟩ ∧ (s.chan 0).form = .acked ∧ (s.ring 0).width = 32 ∧
       (s.chan 0).phase = .first) ∧
    (let s := acked (active (opened32 ready 0 1) .consumer 1) .second
     (s.ring 0).width = 32 ∧ (s.chan 0).phase = .second) ∧
    (let s := acked (active (opened32 ready 0 1) .producer 1) .second
     (s.chan 0).attach = some ⟨0, .producer⟩ ∧ (s.ring 0).width = 32 ∧ (s.chan 0).phase = .second) ∧
    (let s := acked (active (opened32 ready 0 1) .producer 1) .first
     (s.chan 0).attach = some ⟨0, .producer⟩ ∧ (s.ring 0).width = 32 ∧ (s.chan 0).phase = .first ∧
       (s.chan 0).state = .active) ∧
    (let s := acked ((opened32 ready 0 1).attachAgent (.dma 0) 0 .producer) .first
     (s.chan 0).attach = some ⟨0, .producer⟩ ∧ (s.ring 0).width = 32 ∧ (s.chan 0).phase = .first ∧
       (s.chan 0).state ≠ .active ∧ s.win.ready = true) := by decide +kernel

/-! ## Events of lanes -/

theorem test_hyps_SyncArrivalCountsOrMisaligns :
    (let l := (withLane (framed cfg16 .arming 0 .sampled) fun l => { l with arrivalDue := true }).lane 0
     l.arrivalDue = true ∧ l.checkDue = false ∧ l.cfg.role = .follower ∧ l.state = .arming ∧ l.goodSyncs = 0 ∧
       1 ≠ l.cfg.relock) ∧
    (let l := (withLane (framed cfg16 .hunt 0 .sampled) fun l =>
        { l with arrivalDue := true, goodSyncs := 1, lastSync := some 16 }).lane 0
     l.arrivalDue = true ∧ l.checkDue = false ∧ l.cfg.role = .follower ∧ l.state = .hunt ∧ l.goodSyncs ≠ 0 ∧
       l.lastSync = some (l.cfg.slots * l.cfg.width + l.cfg.gap) ∧ l.goodSyncs + 1 = l.cfg.relock) ∧
    (let l := (withLane (framed cfg16 .running 3 .sampled) fun l => { l with arrivalDue := true }).lane 0
     l.arrivalDue = true ∧ l.checkDue = false ∧ l.cfg.role = .follower ∧ l.state = .running ∧ l.cfg.relock ≠ 1) ∧
    (let l := (withLane (framed { cfg16 with relock := 1 } .running 3 .sampled) fun l => { l with arrivalDue := true }).lane 0
     l.arrivalDue = true ∧ l.checkDue = false ∧ l.cfg.role = .follower ∧ l.state = .running ∧ l.cfg.relock = 1) ∧
    (let l := (withLane (framed cfg16 .stopping 3 .sampled) fun l => { l with arrivalDue := true }).lane 0
     l.arrivalDue = true ∧ l.checkDue = false ∧ l.cfg.role = .follower ∧ l.state = .stopping) ∧
    (let l := (withLane ready fun l => { l with arrivalDue := true }).lane 0
     l.arrivalDue = true ∧ l.checkDue = false ∧ l.cfg.role = .follower ∧ l.state = .off) := by decide +kernel

theorem test_hyps_LockTakesTheLaneToRunning :
    (let s := framed { cfg16 with syncEarly := true } .arming 0 .sampled
     (s.lane 0).cfg.syncEarly = true ∧ 0 < (s.lane 0).cfg.slots * (s.lane 0).cfg.width) ∧
    (let s := framed cfg16 .arming 0 .sampled
     (s.lane 0).cfg.syncEarly = false ∧ (s.smap 0).swapPending = false ∧ (s.smap 0).liveBank[0].txKind ≠ .ring ∧
       (s.smap 0).liveBank[0].mark = false) := by decide +kernel

/-- Lane 0 at a check point, after so many misses in a row. -/
def atCheck (state : LaneState) (missed : Nat) (arrival between : Bool) : Lane :=
  (withLane (framed cfg16 state 0 .sampled) fun l =>
    { l with checkDue := true, missedRun := missed, arrivalDue := arrival, between := between }).lane 0

theorem test_hyps_SyncCheckPointTakesOrMissesTheFrame :
    (let l := atCheck .running 1 true true
     l.checkDue = true ∧ l.rxBits ≠ l.cfg.width ∧ l.cfg.role = .follower ∧ l.state = .running ∧ l.arrivalDue = true) ∧
    (let l := atCheck .running 0 false true
     l.checkDue = true ∧ l.rxBits ≠ l.cfg.width ∧ l.cfg.role = .follower ∧ l.state = .running ∧
       l.arrivalDue = false ∧ l.missedRun + 1 ≤ l.cfg.flywheel) ∧
    (let l := atCheck .running 1 false true
     l.checkDue = true ∧ l.rxBits ≠ l.cfg.width ∧ l.cfg.role = .follower ∧ l.state = .running ∧
       l.arrivalDue = false ∧ l.cfg.flywheel < l.missedRun + 1 ∧ l.cfg.relock ≠ 0) ∧
    (let l := atCheck .stopping 0 false true
     l.checkDue = true ∧ l.rxBits ≠ l.cfg.width ∧ l.cfg.role = .follower ∧ l.state = .stopping ∧ l.between = true) ∧
    (let l := atCheck .stopping 0 true false
     l.checkDue = true ∧ l.rxBits ≠ l.cfg.width ∧ l.cfg.role = .follower ∧ l.state = .stopping ∧ l.between = false) := by
  decide +kernel

theorem test_hyps_FrameStartIsTakenAndOrdersItsParts :
    (let l := (framed { cfg16 with role := .master } .running 15 .sampled).lane 0
     l.state = .running ∧ l.cfg.role = .master ∧ l.half = .sampled ∧ l.between = false ∧ l.arrivalDue = false ∧
       l.checkDue = false ∧ l.rxBits ≠ l.cfg.width ∧ l.position + 1 = l.cfg.slots * l.cfg.width + l.cfg.gap) ∧
    (let s := pendingSwap (framed cfg16 .running 15 .sampled); (s.smap 0).swapPending = true) ∧
    (let s := framed { cfg16 with syncEarly := true } .running 15 .sampled
     (s.smap 0).swapPending = false ∧ (s.lane 0).cfg.syncEarly = true ∧
       0 < (s.lane 0).cfg.slots * (s.lane 0).cfg.width) := by decide +kernel

theorem test_hyps_SlotStartActsOnItsEntry :
    let l := (framed cfg16 .running 7 .sampled).lane 0
    l.state = .running ∧ l.half = .sampled ∧ l.between = false ∧ l.arrivalDue = false ∧ l.checkDue = false ∧
      l.rxBits ≠ l.cfg.width ∧ l.position + 1 < l.cfg.slots * l.cfg.width ∧ (l.position + 1) % l.cfg.width = 0 := by
  decide +kernel

theorem test_hyps_SlotEndHandsOnTheCell :
    (let l := (withLane (framed cfg16 .running 7 .sampled) fun l => { l with rxBits := 8 }).lane 0
     l.state = .running ∧ l.rxBits = l.cfg.width ∧ l.rxTarget = .ignore) ∧
    (let l := (withLane (framed cfg16 .stopping 15 .sampled) fun l => { l with rxBits := 8, rxTarget := .ring 3 }).lane 0
     l.state = .stopping ∧ l.rxBits = l.cfg.width ∧ l.rxTarget = .ring 3) := by decide +kernel

theorem test_hyps_EndOfFrameCompletesTheStop :
    let l := (framed cfg16 .stopping 15 .sampled).lane 0
    l.state = .stopping ∧ l.half = .sampled ∧ l.between = false ∧ l.arrivalDue = false ∧ l.checkDue = false ∧
      l.rxBits ≠ l.cfg.width ∧ l.position + 1 = l.cfg.slots * l.cfg.width + l.cfg.gap := by decide +kernel

theorem test_hyps_ClockWatchExpiryActsByState :
    (∀ st ∈ [LaneState.arming, .hunt, .running, .stopping],
      let l := (withLane (framed cfg16 st 3 .driven) fun l => { l with watchRunning := true }).lane 0
      l.watchRunning = true ∧ l.cfg.role = .follower ∧ l.state = st ∧ l.cfg.relock ≠ 0) := by decide +kernel

theorem test_hyps_DriveEdgePutsTheNextBitOnThePin :
    (let l := (withLane (framed cfg16 .running 8 .opening) fun l => { l with txCell := .cell 0x80 }).lane 0
     l.state = .running ∧ l.between = false ∧ l.half = .opening ∧ l.position < l.cfg.slots * l.cfg.width ∧
       l.txCell = .cell 0x80 ∧ l.cfg.role = .follower) ∧
    (let l := (framed { cfg16 with role := .master } .stopping 3 .sampled).lane 0
     l.state = .stopping ∧ l.between = false ∧ l.half = .sampled ∧ l.arrivalDue = false ∧ l.checkDue = false ∧
       l.rxBits ≠ l.cfg.width ∧ l.position + 1 < l.cfg.slots * l.cfg.width + l.cfg.gap ∧
       (l.position + 1) % l.cfg.width ≠ 0 ∧ l.txCell = .quiet ∧ l.cfg.role = .master) ∧
    (let l := (framed { cfg16 with gap := 1 } .running 15 .sampled).lane 0
     l.position + 1 < l.cfg.slots * l.cfg.width + l.cfg.gap ∧ ¬l.position + 1 < l.cfg.slots * l.cfg.width ∧
       l.cfg.slots * l.cfg.width ≤ l.position + 1) ∧
    (ready.lane 0).state = .off ∧
    (∀ st ∈ [LaneState.arming, .hunt],
      let l := (framed cfg16 st 0 .sampled).lane 0
      l.state = st ∧ l.arrivalDue = false ∧ l.checkDue = false ∧ l.rxBits ≠ l.cfg.width) ∧
    (let l := (framed cfg16 .running 15 .sampled).lane 0
     l.state = .running ∧ l.cfg.role = .follower ∧ l.cfg.syncEarly = false ∧ l.half = .sampled ∧ l.between = false ∧
       l.arrivalDue = false ∧ l.checkDue = false ∧ l.rxBits ≠ l.cfg.width ∧
       l.position + 1 = l.cfg.slots * l.cfg.width + l.cfg.gap) := by decide +kernel

theorem test_hyps_SamplingEdgePlacesTheBitAndFindsSync :
    (ready.lane 0).state = .off ∧
    (let l := (framed cfg16 .arming 0 .sampled).lane 0
     l.state = .arming ∧ l.arrivalDue = false ∧ l.checkDue = false ∧ l.rxBits ≠ l.cfg.width) ∧
    (let l := (framed cfg16 .running 15 .driven).lane 0
     l.state = .running ∧ l.half = .driven ∧ l.between = false ∧ l.position < l.cfg.slots * l.cfg.width ∧
       l.cfg.role = .follower) ∧
    (let l := (framed { cfg16 with gap := 1, role := .master } .stopping 16 .driven).lane 0
     l.state = .stopping ∧ l.half = .driven ∧ l.between = false ∧ l.cfg.slots * l.cfg.width ≤ l.position ∧
       l.cfg.role = .master) ∧
    (let l := (withLane (framed cfg16 .running 0 .driven) fun l => { l with between := true }).lane 0
     l.state = .running ∧ l.half = .driven ∧ l.between = true ∧ l.cfg.role = .follower) := by decide +kernel

/-! ## Invariants -/

/-- Lane 0 in slot 0 of a frame, channel 0 with a grant of one on a ring of one cell, and a command waiting. -/
def busy : State :=
  { active (opened (withLane (framed cfg16 .running 3 .sampled) fun l => { l with rxBits := 4 }) 0 1) .consumer 1 with
    pending := [.prDataLoRead] }

theorem test_busy_steps : ∃ t, step busy = .next t := ⟨_, rfl⟩

theorem memoryOk_busy : busy.MemoryOk := by
  unfold State.MemoryOk
  decide +kernel

theorem noticesOk_busy : busy.notices.Ok ∧ busy.notices.MaskOk := by
  unfold NoticeUnit.Ok NoticeUnit.MaskOk
  decide +kernel

theorem quiet_busy : busy.QuietInStartup ∧ busy.ClearingOk := by
  unfold State.QuietInStartup State.ClearingOk
  decide +kernel

theorem quiet_starting : starting.QuietInStartup ∧ starting.ClearingOk := by
  unfold State.QuietInStartup State.ClearingOk
  decide +kernel

theorem ringsOk_busy : busy.RingsOk ∧ busy.RegionsDisjoint := by
  unfold State.RingsOk Ring.Ok State.RegionsDisjoint
  decide +kernel

theorem lanesOk_busy : busy.LanesOk := by
  intro n
  have h : busy.lane n = busy.lane 0 ∨ busy.lane n = .reset :=
    (by decide +kernel : ∀ m, busy.lane m = busy.lane 0 ∨ busy.lane m = .reset) n
  rcases h with h | h
  · rw [h]
    have h1 : (busy.lane 0).half = .sampled ∧ (busy.lane 0).txCell = .quiet := by decide +kernel
    unfold Lane.Ok LaneConfig.Ok Lane.Silent Lane.Unloaded
    refine ⟨by decide +kernel, by decide +kernel, by decide +kernel, by decide +kernel, by decide +kernel,
      by decide +kernel, by decide +kernel, by decide +kernel, fun _ => ?_,
      by decide +kernel, by decide +kernel, by decide +kernel⟩
    unfold Lane.InStep Lane.TxDriven Lane.Unloaded Lane.PinReleased
    rw [h1.1, h1.2]
    decide +kernel
  · rw [h]
    unfold Lane.Ok LaneConfig.Ok Lane.Silent Lane.Unloaded
    refine ⟨by decide +kernel, by decide +kernel, by decide +kernel, by decide +kernel, by decide +kernel,
      by decide +kernel, by decide +kernel, by decide +kernel, fun hf => absurd hf (by decide +kernel),
      by decide +kernel, by decide +kernel, by decide +kernel⟩

theorem test_hyps_StepKeepsMemoryCanonical : busy.MemoryOk ∧ ∃ t, step busy = .next t := ⟨memoryOk_busy, _, rfl⟩

theorem test_hyps_StepKeepsTheNoticeQueueBounded :
    busy.notices.Ok ∧ busy.notices.MaskOk ∧ ∃ t, step busy = .next t := ⟨noticesOk_busy.1, noticesOk_busy.2, _, rfl⟩

theorem test_hyps_StepKeepsStartupQuiet :
    (starting.QuietInStartup ∧ starting.ClearingOk ∧ ∃ t, step starting = .next t) ∧
    busy.QuietInStartup ∧ busy.ClearingOk ∧ ∃ t, step busy = .next t :=
  ⟨⟨quiet_starting.1, quiet_starting.2, _, rfl⟩, quiet_busy.1, quiet_busy.2, _, rfl⟩

theorem test_hyps_StepKeepsRingsWellFormed : busy.RingsOk ∧ busy.RegionsDisjoint ∧ ∃ t, step busy = .next t :=
  ⟨ringsOk_busy.1, ringsOk_busy.2, _, rfl⟩

theorem test_hyps_StepKeepsLanesInStep : busy.LanesOk ∧ ∃ t, step busy = .next t := ⟨lanesOk_busy, _, rfl⟩

theorem agentsSeated_busy : busy.AgentsSeated := by
  intro a r side
  have hp : ∀ q, (busy.ring q).seat .producer = .free := by decide +kernel
  have hc : ∀ q, (busy.ring q).seat .consumer = if q = 0 then .held (.agent (.dma 0)) else .free := by decide +kernel
  have h0 : ∀ ch : ChanId, (busy.chan ch).attach = if ch = 0 then some ⟨0, .consumer⟩ else none := by decide +kernel
  have hr : busy.pr.attach = none ∧ busy.pw.attach = none := by decide +kernel
  cases side
  · rw [hp r]
    cases a with
    | pr => simp [State.attachOf, hr.1]
    | pw => simp [State.attachOf, hr.2]
    | dma ch =>
      simp only [State.attachOf, h0 ch]
      split <;> simp
  · rw [hc r]
    cases a with
    | pr =>
      simp only [State.attachOf, hr.1]
      split <;> simp
    | pw =>
      simp only [State.attachOf, hr.2]
      split <;> simp
    | dma ch =>
      simp only [State.attachOf, h0 ch, Agent.fits]
      by_cases h1 : r = 0 <;> by_cases h2 : ch = 0 <;> simp [h1, h2, eq_comm]

theorem lanesSeated_busy : busy.LanesSeated := by
  intro n r side
  cases side
  · exact (by decide +kernel : ∀ n r, (busy.ring r).seat .producer = .held (.lane n) ↔
      bankNames (busy.smap n).liveBank (busy.lane n).cfg.slots .producer r = true) n r
  · exact (by decide +kernel : ∀ n r, (busy.ring r).seat .consumer = .held (.lane n) ↔
      bankNames (busy.smap n).liveBank (busy.lane n).cfg.slots .consumer r = true) n r

theorem noSeatOfLanes_busy (n : LaneId) (r : RingId) (side : Side) :
    (busy.ring r).seat side ≠ .reserved n ∧ (busy.ring r).seat side ≠ .held (.lane n) := by
  cases side
  · exact (by decide +kernel : ∀ n r, (busy.ring r).seat .producer ≠ .reserved n ∧
      (busy.ring r).seat .producer ≠ .held (.lane n)) n r
  · exact (by decide +kernel : ∀ n r, (busy.ring r).seat .consumer ≠ .reserved n ∧
      (busy.ring r).seat .consumer ≠ .held (.lane n)) n r

theorem reservationsOk_busy : busy.ReservationsOk := fun n => by
  have h : (busy.smap n).swapPending = false := (by decide +kernel : ∀ m, (busy.smap m).swapPending = false) n
  exact ⟨fun e => by simp [h] at e, fun r side e => absurd e (noSeatOfLanes_busy n r side).1, fun e => by simp [h] at e⟩

theorem laneRingsFit_busy : busy.LaneRingsFit := fun n r side e =>
  e.elim (fun h => absurd h (noSeatOfLanes_busy n r side).2) fun h => absurd h (noSeatOfLanes_busy n r side).1

theorem channelsOk_busy : busy.ChannelsOk := by
  unfold State.ChannelsOk Channel.Ok
  decide +kernel

theorem targetsSeated_busy : busy.TargetsSeated := fun n r h => by
  rw [(by decide +kernel : ∀ m, (busy.lane m).rxTarget = .ignore) n] at h
  cases h

theorem grantsBacked_busy : busy.GrantsBacked := by
  intro ch a ha hg
  have h : ∀ d : ChanId, (busy.chan d).attach = if d = 0 then some ⟨0, .consumer⟩ else none := by decide +kernel
  rw [h ch] at ha
  split at ha
  · rename_i e
    cases ha
    subst e
    decide +kernel
  · cases ha

theorem test_hyps_StepKeepsTheInvariant :
    busy.Inv ∧ (∃ t, step busy = .next t) ∧ 0 < (busy.chan 0).grant ∧ (busy.chan 0).attach = some ⟨0, .consumer⟩ :=
  ⟨{ memory := memoryOk_busy, notices := noticesOk_busy.1, mask := noticesOk_busy.2, startup := quiet_busy.1
     clearing := quiet_busy.2, rings := ringsOk_busy.1, regions := ringsOk_busy.2, agents := agentsSeated_busy
     laneSeats := lanesSeated_busy, reservations := reservationsOk_busy, laneRings := laneRingsFit_busy, targets := targetsSeated_busy
     channels := channelsOk_busy, grants := grantsBacked_busy, lanes := lanesOk_busy
     ports := ⟨fun h => absurd rfl h, fun h => absurd rfl h⟩ },
    ⟨_, rfl⟩, by decide +kernel, by decide +kernel⟩

end Sys2Proof.Tests
end

section
/-! PROOFS. The commands on rings: RING_OPEN, RING_CLOSE, and the commands that read a ring's record
(R5, R6, R11 to R13, R157). -/

namespace Sys2Proof.Machine

/-! ## Arrivals of ring commands -/

theorem exec_ringOpen (s : State) : exec .ringOpen s = .next (arrive 0x10 ringOpenOwner s) := rfl
theorem exec_ringClose (s : State) : exec .ringClose s = .next (arrive 0x11 ringCloseOwner s) := rfl
theorem exec_ringStatus (s : State) : exec .ringStatus s = .next (arrive 0x16 ringStatusOwner s) := rfl
theorem exec_ringStats (s : State) : exec .ringStats s = .next (arrive 0x17 ringStatsOwner s) := rfl
theorem exec_ringPeek (s : State) : exec .ringPeek s = .next (arrive 0x18 ringPeekOwner s) := rfl

/-- An owner that leaves the state as it is: only the window registers take values. -/
theorem next_arrive_of_unchanged {code : Word} {owner : Owner} {s : State} {a : Answer} (h : s.Accepts)
    (ho : owner (s.setCmd code) = (s.setCmd code, a)) :
    (Host.Outcome.next (arrive code owner s) : Outcome) = .next (s.onlyAnswered code a) := by
  rw [arrive_of_accepts h, ho, answer_setCmd]

/-- An owner that writes one ring record: that record and the window registers take values, and nothing else. -/
theorem exists_arrive_of_setRing {code : Word} {owner : Owner} {s : State} {r : RingId} {g : Ring} {a : Answer}
    (h : s.Accepts) (ho : owner (s.setCmd code) = ((s.setCmd code).setRing r g, a)) :
    ∃ t, (Host.Outcome.next (arrive code owner s) : Outcome) = .next t ∧
      t = { s with rings := t.rings, win := s.win.answered code a } ∧ s.SameRingsBut t r ∧ t.ring r = g := by
  refine ⟨_, rfl, ?_⟩
  rw [arrive_of_accepts h, ho]
  refine ⟨rfl, fun q hq => ?_, ?_⟩
  · simp [hq]
  · simp

/-! ## RING_OPEN (R5) -/

theorem widthOk_iff (w : Nat) : widthOk w = true ↔ w = 8 ∨ w = 16 ∨ w = 32 := by
  simp [widthOk, or_assoc]

/-- What RING_OPEN asks of width, length and region (R5). -/
def OpenInRange (base length width : Nat) : Prop :=
  (width = 8 ∨ width = 16 ∨ width = 32) ∧ 2 ≤ length ∧ base + length ≤ Config.memWords

/-- The parameter check of RING_OPEN refuses exactly what is not in range. -/
theorem openParams_refused_iff (base length width : Nat) :
    (!widthOk width || decide (length < 2) || decide (Config.memWords < base + length)) = true ↔
      ¬OpenInRange base length width := by
  simp only [OpenInRange, ← widthOk_iff, Bool.or_eq_true, Bool.not_eq_true', decide_eq_true_eq,
    not_and_or, Bool.not_eq_true, not_le, or_assoc]

/-- Two intervals that are not empty overlap exactly when they have a word in common. -/
theorem Ring.overlaps_iff {g : Ring} {base length : Nat} (hg : g.Ok) (hl : 0 < length) :
    g.overlaps base length = true ↔
      ∃ w, g.state = .opened ∧ base ≤ w ∧ w < base + length ∧ g.base ≤ w ∧ w < g.base + g.length := by
  simp only [Ring.overlaps, Bool.and_eq_true, beq_iff_eq, decide_eq_true_eq]
  constructor
  · rintro ⟨⟨ho, h1⟩, h2⟩
    obtain ⟨-, hlen, -⟩ := hg.2 ho
    exact ⟨max base g.base, ho, by omega, by omega, by omega, by omega⟩
  · rintro ⟨w, ho, h1, h2, h3, h4⟩
    exact ⟨⟨ho, by omega⟩, by omega⟩

theorem State.exists_mem_rings_iff (s : State) (p : Ring → Prop) :
    (∃ g ∈ s.rings, p g) ↔ ∃ q, p (s.ring q) := by
  simp only [Vector.mem_iff_getElem]
  constructor
  · rintro ⟨-, ⟨i, hi, rfl⟩, h⟩
    exact ⟨⟨i, hi⟩, h⟩
  · rintro ⟨q, h⟩
    exact ⟨s.ring q, ⟨q.val, q.isLt, rfl⟩, h⟩

/-- A region is taken exactly when one of its words is a word of an OPEN ring (R5). -/
theorem State.regionTaken_iff {s : State} {base length : Nat} (hr : s.RingsOk) (hl : 0 < length) :
    s.regionTaken base length = true ↔
      ∃ q w, (s.ring q).state = .opened ∧ base ≤ w ∧ w < base + length ∧
        (s.ring q).base ≤ w ∧ w < (s.ring q).base + (s.ring q).length := by
  simp only [State.regionTaken, List.any_eq_true, Vector.mem_toList_iff]
  rw [s.exists_mem_rings_iff]
  exact exists_congr fun q => Ring.overlaps_iff (hr q) hl

theorem ringOpenOwner_badRing {s : State} (h : 16 ≤ s.win.arg0.toNat) :
    ringOpenOwner s = (s, .plain .badParam) := by
  simp [ringOpenOwner, ringArg_eq_none h]

theorem ringOpenOwner_of_notInRange {s : State} {r : RingId} (h : s.win.arg0.toNat = r.val)
    (hn : ¬OpenInRange s.win.arg1.toNat s.win.arg2.toNat s.win.arg3.toNat) :
    ringOpenOwner s = (s, .plain .badParam) := by
  simp only [ringOpenOwner, ringArg_eq_some h]
  exact if_pos ((openParams_refused_iff _ _ _).mpr hn)

/-- The checks of RING_OPEN behind those of its parameters, in order (R5). -/
theorem ringOpenOwner_of_inRange {s : State} {r : RingId} (h : s.win.arg0.toNat = r.val)
    (hin : OpenInRange s.win.arg1.toNat s.win.arg2.toNat s.win.arg3.toNat) :
    ringOpenOwner s =
      if (s.ring r).state ≠ .closed then (s, .plain .ringState)
      else if s.regionTaken s.win.arg1.toNat s.win.arg2.toNat then (s, .plain .overlap)
      else (s.setRing r (.afterOpen s.win.arg1.toNat s.win.arg2.toNat s.win.arg3.toNat), .plain .done) := by
  simp only [ringOpenOwner, ringArg_eq_some h]
  exact if_neg (mt (openParams_refused_iff _ _ _).mp (not_not_intro hin))

/-- The first refusal of RING_OPEN: the ring number, or the other parameters (R5). -/
theorem ringOpenOwner_badParam {s : State}
    (h : 16 ≤ s.win.arg0.toNat ∨ ¬OpenInRange s.win.arg1.toNat s.win.arg2.toNat s.win.arg3.toNat) :
    ringOpenOwner s = (s, .plain .badParam) := by
  by_cases hr : 16 ≤ s.win.arg0.toNat
  · exact ringOpenOwner_badRing hr
  · exact ringOpenOwner_of_notInRange (r := ⟨s.win.arg0.toNat, by omega⟩) rfl (h.resolve_left hr)

/-- Settles O10: the checks in order, OVERLAP being a word in common with an OPEN ring. -/
theorem ringOpenChecksAndOpens : Obligations.RingOpenChecksAndOpens := by
  intro s hs hrings
  dsimp only
  rw [exec_ringOpen]
  refine ⟨fun h => next_arrive_of_unchanged hs (ringOpenOwner_badParam h), fun r hr hin => ?_⟩
  have howner := ringOpenOwner_of_inRange (s := s.setCmd 0x10) hr hin
  have hlength : 0 < s.win.arg2.toNat := by omega
  rw [← State.regionTaken_iff hrings hlength]
  refine ⟨fun ho => ?_, fun hc htaken => ?_, fun hc hfree => ?_⟩
  · have hopen : ((s.setCmd 0x10).ring r).state ≠ .closed := by simp [ho]
    exact next_arrive_of_unchanged hs (howner.trans (if_pos hopen))
  · exact next_arrive_of_unchanged hs (howner.trans ((if_neg (not_not_intro hc)).trans (if_pos htaken)))
  · exact exists_arrive_of_setRing hs (howner.trans ((if_neg (not_not_intro hc)).trans (if_neg hfree)))

/-! ## RING_CLOSE (R6) -/

/-- The check of RING_CLOSE behind those of the ring's number and state (R6). -/
theorem ringCloseOwner_of_opened {s : State} {r : RingId} (h : s.win.arg0.toNat = r.val)
    (ho : (s.ring r).state = .opened) :
    ringCloseOwner s =
      if (s.ring r).producer ≠ .free ∨ (s.ring r).consumer ≠ .free then (s, .plain .seatBusy)
      else (s.setRing r .reset, .plain .done) :=
  onOpenRing_of_opened _ h ho

/-- Settles O11: the first two refusals are those of every command on an OPEN ring, then the seats decide. -/
theorem ringCloseChecksAndCloses : Obligations.RingCloseChecksAndCloses := by
  intro s hs
  rw [exec_ringClose]
  refine ⟨fun h => ?_, fun r hr => ⟨fun hc => ?_, fun ho hbusy => ?_, fun ho hp hc => ?_⟩⟩
  · exact next_arrive_of_unchanged hs (onOpenRing_of_badRing _ h)
  · exact next_arrive_of_unchanged hs (onOpenRing_of_closed _ hr hc)
  · have howner := ringCloseOwner_of_opened (s := s.setCmd 0x11) hr ho
    exact next_arrive_of_unchanged hs (howner.trans (if_pos hbusy))
  · have howner := ringCloseOwner_of_opened (s := s.setCmd 0x11) hr ho
    exact exists_arrive_of_setRing hs (howner.trans (if_neg (by simp [hp, hc])))

/-! ## RING_STATUS (R11, R157) -/

theorem boolNat_eq_toNat (b : Bool) : boolNat b = b.toNat := by cases b <;> rfl

theorem Seat.code_lt (seat : Seat) : seat.code < 12 := by
  cases seat with
  | free => decide
  | reserved n => simp only [Seat.code]; omega
  | held h =>
    cases h with
    | lane n => simp only [Seat.code]; omega
    | agent a =>
      cases a with
      | pr => decide
      | pw => decide
      | dma ch => simp only [Seat.code]; omega

theorem Zone.code_lt (z : Zone) : z.code < 3 := by cases z <;> decide

/-- The packed status of an OPEN ring: no field runs into the next, and the sum fits the word (R157). -/
theorem Ring.toNat_statusWord {g : Ring} (ho : g.state = .opened) :
    g.statusWord.toNat = g.producer.code + 16 * g.consumer.code + 256 + 512 * g.zone.code
      + 2048 * g.prime.toNat + 4096 * g.primed.toNat + 8192 * g.underrunEpisode.toNat
      + 16384 * g.overrunEpisode.toNat := by
  have hp := g.producer.code_lt
  have hc := g.consumer.code_lt
  have hz := g.zone.code_lt
  have h1 := g.prime.toNat_lt
  have h2 := g.primed.toNat_lt
  have h3 := g.underrunEpisode.toNat_lt
  have h4 := g.overrunEpisode.toNat_lt
  simp only [Ring.statusWord, ho, boolNat_eq_toNat, RingState.code, BitVec.toNat_ofNat]
  omega

theorem Ring.toNat_levelWord {g : Ring} (ho : g.state = .opened) (hl : g.level < 65536) :
    g.levelWord.toNat = g.level := by
  simp only [Ring.levelWord, ho, BitVec.toNat_ofNat]
  omega

theorem Ring.statusWord_of_closed {g : Ring} (hc : g.state = .closed) : g.statusWord = 0 := by
  simp only [Ring.statusWord, hc]

theorem Ring.levelWord_of_closed {g : Ring} (hc : g.state = .closed) : g.levelWord = 0 := by
  simp only [Ring.levelWord, hc]

theorem ringStatusOwner_of_badRing {s : State} (h : 16 ≤ s.win.arg0.toNat) :
    ringStatusOwner s = (s, .plain .badParam) := by
  simp only [ringStatusOwner, ringArg_eq_none h]

theorem ringStatusOwner_of_ring {s : State} {r : RingId} (h : s.win.arg0.toNat = r.val) :
    ringStatusOwner s = (s, ⟨.done, (s.ring r).levelWord, (s.ring r).statusWord⟩) := by
  simp only [ringStatusOwner, ringArg_eq_some h]

/-- RING_STATUS of a ring in range answers its level and status words and changes nothing else (R11). -/
theorem exec_ringStatus_of_ring {s : State} {r : RingId} (hs : s.Accepts) (h : s.win.arg0.toNat = r.val) :
    exec .ringStatus s =
      .next (s.onlyAnswered 0x16 ⟨.done, (s.ring r).levelWord, (s.ring r).statusWord⟩) := by
  rw [exec_ringStatus]
  exact next_arrive_of_unchanged hs (ringStatusOwner_of_ring h)

/-! ## RING_STATS (R12) -/

theorem flagArg_eq_some {w : Word} (h : w.toNat ≤ 1) : flagArg w = some (decide (w.toNat = 1)) := by
  have hcases : w.toNat = 0 ∨ w.toNat = 1 := by omega
  rcases hcases with h0 | h1
  · simp [flagArg, h0]
  · simp [flagArg, h1]

theorem ringStatsOwner_badParam {s : State} (h : 16 ≤ s.win.arg0.toNat ∨ 1 < s.win.arg1.toNat) :
    ringStatsOwner s = (s, .plain .badParam) := by
  rcases h with h | h
  · simp [ringStatsOwner, ringArg_eq_none h]
  · simp [ringStatsOwner, flagArg_eq_none h]

theorem ringStatsOwner_of_closed {s : State} {r : RingId} (h : s.win.arg0.toNat = r.val)
    (hf : s.win.arg1.toNat ≤ 1) (hc : (s.ring r).state = .closed) :
    ringStatsOwner s = (s, .plain .ringState) := by
  simp [ringStatsOwner, ringArg_eq_some h, flagArg_eq_some hf, hc]

/-- RING_STATS of an OPEN ring as a write of its record, which without `clear` is the record as it stands (R12). -/
theorem ringStatsOwner_of_opened {s : State} {r : RingId} (h : s.win.arg0.toNat = r.val)
    (hf : s.win.arg1.toNat ≤ 1) (ho : (s.ring r).state = .opened) :
    ringStatsOwner s =
      (s.setRing r (if s.win.arg1.toNat = 1 then { s.ring r with underrunCount := 0, overrunCount := 0 }
          else s.ring r),
        ⟨.done, (s.ring r).underrunCount, (s.ring r).overrunCount⟩) := by
  by_cases h1 : s.win.arg1.toNat = 1
  · simp [ringStatsOwner, ringArg_eq_some h, flagArg_eq_some hf, ho, h1]
  · simp [ringStatsOwner, ringArg_eq_some h, flagArg_eq_some hf, ho, h1]

/-! ## RING_PEEK (R13) -/

theorem loHalf_eq_mod (c : Cell) : loHalf c = BitVec.ofNat 16 (c.toNat % 65536) := by
  apply BitVec.eq_of_toNat_eq
  simp [loHalf]

theorem State.getElem?_cells {s : State} {r : RingId} {i : Nat} (h : i < (s.ring r).level) :
    (s.cells r)[i]? = some (s.peekCell r i) := by
  simp [State.cells, h]

/-- A cell of a ring is 0 above the ring's width (R1). -/
theorem State.peekCell_lt (s : State) {r : RingId} (i : Nat)
    (hw : (s.ring r).width = 8 ∨ (s.ring r).width = 16 ∨ (s.ring r).width = 32) :
    (s.peekCell r i).toNat < 2 ^ (s.ring r).width :=
  Memory.readCell_lt s.mem hw

/-- The check of RING_PEEK behind those of the ring's number and state, and its answer (R13). -/
theorem ringPeekOwner_of_opened {s : State} {r : RingId} (h : s.win.arg0.toNat = r.val)
    (ho : (s.ring r).state = .opened) :
    ringPeekOwner s =
      if (s.ring r).level ≤ s.win.arg1.toNat then (s, .plain .empty)
      else (s, ⟨.done, loHalf (s.peekCell r s.win.arg1.toNat), hiHalf (s.peekCell r s.win.arg1.toNat)⟩) :=
  onOpenRing_of_opened _ h ho

/-- RING_PEEK below the Level answers the halves of the cell at the offset, low half first (R13). -/
theorem exec_ringPeek_of_lt {s : State} {r : RingId} (hs : s.Accepts) (h : s.win.arg0.toNat = r.val)
    (ho : (s.ring r).state = .opened) (hlt : s.win.arg1.toNat < (s.ring r).level) :
    exec .ringPeek s = .next (s.onlyAnswered 0x18
      ⟨.done, BitVec.ofNat 16 ((s.peekCell r s.win.arg1.toNat).toNat % 65536),
        BitVec.ofNat 16 ((s.peekCell r s.win.arg1.toNat).toNat / 65536)⟩) := by
  have howner := ringPeekOwner_of_opened (s := s.setCmd 0x18) h ho
  rw [exec_ringPeek, ← loHalf_eq_mod]
  exact next_arrive_of_unchanged hs (howner.trans (if_neg (Nat.not_le.mpr hlt)))

/-! ## The reading commands together -/

/-- Settles O15: the owners' answers above, command by command; the code tables hold by their definition. -/
theorem ringReadingCommandsAnswerTheRecord : Obligations.RingReadingCommandsAnswerTheRecord := by
  refine ⟨fun s hs => ⟨fun h => ?statusBadRing,
      fun r hr => ⟨fun hc => ?statusClosed, fun ho hl => ?statusOpened⟩⟩,
    fun s hs => ⟨fun h => ?statsBadParam, fun r hr hf => ⟨fun hc => ?statsClosed, fun ho => ?statsOpened⟩⟩,
    fun s hs => ⟨fun h => ?peekBadRing,
      fun r hr => ⟨fun hc => ?peekClosed, fun ho hle => ?peekEmpty, fun ho hlt => ?peekCell⟩⟩,
    rfl, rfl, rfl, fun _ => rfl, fun _ => ⟨rfl, rfl⟩, rfl⟩
  case statusBadRing =>
    rw [exec_ringStatus]
    exact next_arrive_of_unchanged hs (ringStatusOwner_of_badRing h)
  case statusClosed =>
    rw [exec_ringStatus_of_ring hs hr, Ring.levelWord_of_closed hc, Ring.statusWord_of_closed hc]
  case statusOpened =>
    exact ⟨_, _, exec_ringStatus_of_ring hs hr, Ring.toNat_levelWord ho hl, Ring.toNat_statusWord ho⟩
  case statsBadParam =>
    rw [exec_ringStats]
    exact next_arrive_of_unchanged hs (ringStatsOwner_badParam h)
  case statsClosed =>
    rw [exec_ringStats]
    exact next_arrive_of_unchanged hs (ringStatsOwner_of_closed hr hf hc)
  case statsOpened =>
    rw [exec_ringStats]
    exact exists_arrive_of_setRing hs (ringStatsOwner_of_opened hr hf ho)
  case peekBadRing =>
    rw [exec_ringPeek]
    exact next_arrive_of_unchanged hs (onOpenRing_of_badRing _ h)
  case peekClosed =>
    rw [exec_ringPeek]
    exact next_arrive_of_unchanged hs (onOpenRing_of_closed _ hr hc)
  case peekEmpty =>
    have howner := ringPeekOwner_of_opened (s := s.setCmd 0x18) hr ho
    rw [exec_ringPeek]
    exact next_arrive_of_unchanged hs (howner.trans (if_pos hle))
  case peekCell =>
    refine ⟨_, State.getElem?_cells hlt, fun w hw hwidth => ?_, exec_ringPeek_of_lt hs hr ho hlt⟩
    rw [← hwidth]
    exact s.peekCell_lt _ (by simpa [hwidth] using hw)

end Sys2Proof.Machine
end

section
/-! PROOFS. ATTACH: the codes of agents and seats, its checks in order, and what an accepted one changes (R29, R31). -/

namespace Sys2Proof.Machine

/-! ## Codes of agents and seats -/

/-- The code of a host agent in `agent` (R29). -/
def Agent.code : Agent → Nat
  | .pr => 0
  | .pw => 1
  | .dma ch => 2 + ch.val

/-- The code of a side in `seat` (R29). -/
def Side.code : Side → Nat
  | .producer => 0
  | .consumer => 1

theorem Agent.code_le (a : Agent) : a.code ≤ 3 := by
  cases a with
  | pr => decide
  | pw => decide
  | dma ch =>
    have hch := ch.isLt
    simp only [Agent.code]
    omega

theorem Side.code_le (side : Side) : side.code ≤ 1 := by cases side <;> decide

/-- Every agent is what its code names. -/
theorem agentArg_eq_some {w : Word} {a : Agent} (h : w.toNat = a.code) : agentArg w = some a := by
  cases a with
  | pr => simp only [agentArg, h, Agent.code]
  | pw => simp only [agentArg, h, Agent.code]
  | dma ch =>
    have hchan : ∀ d : ChanId, d = 0 ∨ d = 1 := by decide
    rcases hchan ch with rfl | rfl
    · simp [agentArg, h, Agent.code]
    · simp [agentArg, h, Agent.code]

theorem sideArg_eq_some {w : Word} {side : Side} (h : w.toNat = side.code) : sideArg w = some side := by
  cases side with
  | producer => simp only [sideArg, h, Side.code]
  | consumer => simp only [sideArg, h, Side.code]

/-- A word names no agent but the one whose code it is. -/
theorem code_of_agentArg {w : Word} {a : Agent} (h : agentArg w = some a) : w.toNat = a.code := by
  unfold agentArg at h
  split at h
  · cases h; assumption
  · cases h; assumption
  · cases h; assumption
  · cases h; assumption
  · cases h

theorem code_of_sideArg {w : Word} {side : Side} (h : sideArg w = some side) : w.toNat = side.code := by
  unfold sideArg at h
  split at h
  · cases h; assumption
  · cases h; assumption
  · cases h

theorem lt_of_ringArg {w : Word} {r : RingId} (h : ringArg w = some r) : w.toNat < 16 := by
  by_contra hn
  rw [ringArg_eq_none (by omega)] at h
  cases h

/-- The two seats that do not fit are PR's producer seat and PW's consumer seat (R29). -/
theorem Agent.fits_iff (a : Agent) (side : Side) :
    a.fits side = true ↔ ¬(a.code = 0 ∧ side.code = 0) ∧ ¬(a.code = 1 ∧ side.code = 1) := by
  cases a with
  | pr => cases side <;> decide
  | pw => cases side <;> decide
  | dma ch =>
    simp only [Agent.fits, Agent.code, true_iff]
    omega

/-! ## The checks of ATTACH (R29) -/

/-- What ATTACH asks of its three arguments (R29). -/
def AttachInRange (agent ring seat : Nat) : Prop :=
  agent ≤ 3 ∧ ring ≤ 15 ∧ seat ≤ 1 ∧ ¬(agent = 0 ∧ seat = 0) ∧ ¬(agent = 1 ∧ seat = 1)

theorem exec_attach (s : State) : exec .attach s = .next (arrive 0x20 attachOwner s) := rfl

/-- The first refusal of ATTACH. Arguments that all name something and are not in range are a seat that does not fit. -/
theorem attachOwner_badParam {s : State}
    (h : ¬AttachInRange s.win.arg0.toNat s.win.arg1.toNat s.win.arg2.toNat) :
    attachOwner s = (s, .plain .badParam) := by
  unfold attachOwner
  split
  next a r side ha hr hside =>
    have hring := lt_of_ringArg hr
    have hfits : ¬a.fits side = true := by
      rw [Agent.fits_iff]
      intro hf
      rw [code_of_agentArg ha, code_of_sideArg hside] at h
      exact h ⟨a.code_le, by omega, side.code_le, hf⟩
    exact if_pos (by simpa using hfits)
  next => rfl

/-- The checks of ATTACH behind that of its arguments, in order. -/
theorem attachOwner_of_inRange {s : State} {a : Agent} {r : RingId} {side : Side}
    (hin : AttachInRange s.win.arg0.toNat s.win.arg1.toNat s.win.arg2.toNat)
    (ha : s.win.arg0.toNat = a.code) (hr : s.win.arg1.toNat = r.val) (hside : s.win.arg2.toNat = side.code) :
    attachOwner s =
      if (s.ring r).state ≠ .opened then (s, .plain .ringState)
      else if (s.attachOf a).isSome then (s, .plain .agentBusy)
      else if (s.ring r).seat side ≠ .free then (s, .plain .seatBusy)
      else (s.attachAgent a r side, .plain .done) := by
  obtain ⟨-, -, -, hfits⟩ := hin
  rw [ha, hside, ← Agent.fits_iff] at hfits
  simp only [attachOwner, agentArg_eq_some ha, ringArg_eq_some hr, sideArg_eq_some hside]
  exact if_neg (by simp [hfits])

/-! ## What an accepted ATTACH changes (R29, R31) -/

@[simp] theorem State.ring_setRecord (s : State) (a : Agent) (x : AttachRecord) (r : RingId) :
    (s.setRecord a x).ring r = s.ring r := by
  cases a <;> rfl

@[simp] theorem State.attachOf_setRing (s : State) (r : RingId) (g : Ring) (a : Agent) :
    (s.setRing r g).attachOf a = s.attachOf a := rfl

@[simp] theorem State.attachOf_setRecord_self (s : State) (a : Agent) (x : AttachRecord) :
    (s.setRecord a x).attachOf a = x.current := by
  cases a with
  | pr => rfl
  | pw => rfl
  | dma ch => simp [State.setRecord, State.attachOf]

theorem State.attachOf_setRecord_of_ne (s : State) {a b : Agent} (x : AttachRecord) (h : b ≠ a) :
    (s.setRecord a x).attachOf b = s.attachOf b := by
  cases a with
  | pr =>
    cases b with
    | pr => exact absurd rfl h
    | pw => rfl
    | dma d => rfl
  | pw =>
    cases b with
    | pr => rfl
    | pw => exact absurd rfl h
    | dma d => rfl
  | dma ch =>
    cases b with
    | pr => rfl
    | pw => rfl
    | dma d =>
      have hd : d ≠ ch := fun e => h (congrArg Agent.dma e)
      simp only [State.setRecord, State.attachOf, State.chan_setChan_of_ne _ _ _ _ hd]

/-- Of a port only the record can change. -/
theorem State.pr_setRecord (s : State) (a : Agent) (x : AttachRecord) :
    (s.setRecord a x).pr = { s.pr with record := (s.setRecord a x).pr.record } := by
  cases a <;> rfl

theorem State.pw_setRecord (s : State) (a : Agent) (x : AttachRecord) :
    (s.setRecord a x).pw = { s.pw with record := (s.setRecord a x).pw.record } := by
  cases a <;> rfl

/-- Of a channel only the record can change. -/
theorem State.chan_setRecord (s : State) (a : Agent) (x : AttachRecord) (d : ChanId) :
    (s.setRecord a x).chan d = { s.chan d with record := ((s.setRecord a x).chan d).record } := by
  cases a with
  | pr => rfl
  | pw => rfl
  | dma ch =>
    by_cases hd : d = ch
    · subst hd; simp [State.setRecord]
    · simp [State.setRecord, hd]

/-- Everything an accepted ATTACH can change: ring records and the records of the agents. -/
theorem State.attachAgent_frame (s : State) (a : Agent) (r : RingId) (side : Side) :
    s.attachAgent a r side = { s with
      rings := (s.attachAgent a r side).rings, pr := (s.attachAgent a r side).pr,
      pw := (s.attachAgent a r side).pw, chans := (s.attachAgent a r side).chans } := by
  cases a <;> rfl

theorem State.ring_attachAgent_self (s : State) (a : Agent) (r : RingId) (side : Side) :
    (s.attachAgent a r side).ring r = (s.ring r).setSeat side (.held (.agent a)) := by
  simp [State.attachAgent]

theorem State.ring_attachAgent_of_ne (s : State) (a : Agent) {r q : RingId} (side : Side) (h : q ≠ r) :
    (s.attachAgent a r side).ring q = s.ring q := by
  simp [State.attachAgent, h]

theorem State.attachOf_attachAgent_self (s : State) (a : Agent) (r : RingId) (side : Side) :
    (s.attachAgent a r side).attachOf a = some ⟨r, side⟩ := by
  simp [State.attachAgent]

theorem State.attachOf_attachAgent_of_ne (s : State) {a b : Agent} (r : RingId) (side : Side) (h : b ≠ a) :
    (s.attachAgent a r side).attachOf b = s.attachOf b := by
  simp only [State.attachAgent, State.attachOf_setRecord_of_ne _ _ h, State.attachOf_setRing]

/-! ## ATTACH as a whole -/

/-- Settles O21: the arguments decide first, then ring, agent and seat in this order; an accepted ATTACH writes one seat
and one record. -/
theorem attachChecksAndTakesTheSeat : Obligations.AttachChecksAndTakesTheSeat := by
  intro s hs
  dsimp only
  rw [exec_attach]
  refine ⟨fun h => next_arrive_of_unchanged hs (attachOwner_badParam h), fun a r side hin ha hr hside => ?_⟩
  have hacode : s.win.arg0.toNat = a.code := by cases a <;> exact ha
  have hsidecode : s.win.arg2.toNat = side.code := by cases side <;> exact hside
  have howner := attachOwner_of_inRange (s := s.setCmd 0x20) hin hacode hr hsidecode
  refine ⟨fun hc => ?ringState, fun ho hbusy => ?agentBusy, fun ho hidle hseat => ?seatBusy,
    fun ho hidle hfree => ?accepted⟩
  case ringState =>
    have hclosed : ((s.setCmd 0x20).ring r).state ≠ .opened := by simp [hc]
    exact next_arrive_of_unchanged hs (howner.trans (if_pos hclosed))
  case agentBusy =>
    have hattached : ((s.setCmd 0x20).attachOf a).isSome = true := Option.isSome_iff_ne_none.mpr hbusy
    exact next_arrive_of_unchanged hs (howner.trans ((if_neg (not_not_intro ho)).trans (if_pos hattached)))
  case seatBusy =>
    have hunattached : ¬((s.setCmd 0x20).attachOf a).isSome = true := by simp [hidle]
    exact next_arrive_of_unchanged hs
      (howner.trans ((if_neg (not_not_intro ho)).trans ((if_neg hunattached).trans (if_pos hseat))))
  case accepted =>
    have hunattached : ¬((s.setCmd 0x20).attachOf a).isSome = true := by simp [hidle]
    have haccepted := howner.trans ((if_neg (not_not_intro ho)).trans
      ((if_neg hunattached).trans (if_neg (not_not_intro hfree))))
    refine ⟨_, rfl, ?_⟩
    rw [arrive_of_accepts hs, haccepted]
    refine ⟨?frame, fun q hq => ?otherRings, ?seat, ?record, fun b hb => ?otherAgents, ?readPort, ?writePort, fun ch => ?chan⟩
    case frame => rw [State.attachAgent_frame]; rfl
    case otherRings => exact State.ring_attachAgent_of_ne _ a side hq
    case seat => exact State.ring_attachAgent_self _ a r side
    case record => exact State.attachOf_attachAgent_self _ a r side
    case otherAgents => exact State.attachOf_attachAgent_of_ne _ r side hb
    case readPort => exact State.pr_setRecord _ a _
    case writePort => exact State.pw_setRecord _ a _
    case chan => exact State.chan_setRecord _ a _ ch

end Sys2Proof.Machine
end

section
/-! PROOFS. MAP_CANCEL: what dropping a pending swap changes of maps and seats, and the command's answers (R40, R89). -/

namespace Sys2Proof.Machine

/-! ## A pending swap dropped (R40) -/

@[simp] theorem State.smap_dropSwap_self (s : State) (n : LaneId) :
    (s.dropSwap n).smap n = { s.smap n with swapPending := false } :=
  State.smap_setSmap_self _ n _

theorem State.smap_dropSwap_of_ne (s : State) {n m : LaneId} (h : m ≠ n) : (s.dropSwap n).smap m = s.smap m :=
  State.smap_setSmap_of_ne _ n m _ h

theorem State.sameButSeats_dropSwap (s : State) (n : LaneId) (r : RingId) :
    (s.ring r).SameButSeats ((s.dropSwap n).ring r) := s.sameButSeats_unreserveSeats n r

/-- Seats RESERVED for the lane become FREE; every other seat stays as it is. -/
theorem State.seat_dropSwap (s : State) (n : LaneId) (r : RingId) (side : Side) :
    ((s.dropSwap n).ring r).seat side =
      if (s.ring r).seat side = .reserved n then .free else (s.ring r).seat side :=
  s.seat_mapSeats (fun _ _ seat => seat.unreserve n) r side

/-! ## MAP_CANCEL (R89) -/

theorem exec_mapCancel (s : State) : exec .mapCancel s = .next (arrive 0x46 mapCancelOwner s) := rfl

/-- MAP_CANCEL on a lane in range: whether a swap is pending decides. -/
theorem mapCancelOwner_of_lane {s : State} {n : LaneId} (h : s.win.arg0.toNat = n.val) :
    mapCancelOwner s =
      if (s.smap n).swapPending then (s.dropSwap n, .plain .done) else (s, .plain .already) :=
  onLane_of_lane _ h

/-- Settles O31: the lane's number and then the pending swap decide the answer, and an accepted MAP_CANCEL drops the
swap, whose seats and map the lemmas above give. -/
theorem mapCancelEndsAPendingSwap : Obligations.MapCancelEndsAPendingSwap := by
  intro s hs
  rw [exec_mapCancel]
  refine ⟨fun h => next_arrive_of_unchanged hs (onLane_of_badLane _ h), fun n hn => ?_⟩
  have howner := mapCancelOwner_of_lane (s := s.setCmd 0x46) hn
  refine ⟨fun hnone => ?already, fun hpending => ?done⟩
  case already =>
    have hidle : ¬((s.setCmd 0x46).smap n).swapPending = true := by simp [hnone]
    exact next_arrive_of_unchanged hs (howner.trans (if_neg hidle))
  case done =>
    refine ⟨_, rfl, ?_⟩
    rw [arrive_of_accepts hs, howner.trans (if_pos hpending)]
    refine ⟨?frame, fun m hm => ?otherMaps, ?map, fun r side => ⟨?ringRecord, ?seat⟩⟩
    case frame => rw [State.dropSwap_frame]; rfl
    case otherMaps => rw [State.smap_answer, State.smap_dropSwap_of_ne _ hm, State.smap_setCmd]
    case map => rw [State.smap_answer, State.smap_dropSwap_self, State.smap_setCmd]
    case ringRecord => exact State.sameButSeats_dropSwap _ n r
    case seat => rw [State.ring_answer, State.seat_dropSwap, State.ring_setCmd]

end Sys2Proof.Machine
end

section
/-! PROOFS. NOTICE_MASK: the mask in force bit by bit and by halves, and the command's one answer (R163). -/

namespace Sys2Proof.Machine

/-! ## The mask in force (R163) -/

/-- Codes 16 and 17 are the two low bits of the upper half; the lower half is the written word without bit 0. -/
theorem toNat_maskInForce (lo : Word) :
    (maskInForce lo).toNat = 2 ^ 16 * (2 ^ 2 - 1) + 2 ^ 1 * (lo.toNat / 2 ^ 1) := by
  have := lo.isLt
  simp only [maskInForce, BitVec.toNat_ofNat]
  omega

theorem getLsbD_maskInForce (lo : Word) (k : Nat) :
    (maskInForce lo).getLsbD k =
      if 1 ≤ k ∧ k ≤ 15 then lo.getLsbD k else decide (k = 16 ∨ k = 17) := by
  have hlow : 2 ^ 1 * (lo.toNat / 2 ^ 1) < 2 ^ 16 := by
    have := lo.isLt
    omega
  rw [← BitVec.testBit_toNat, toNat_maskInForce, Nat.testBit_two_pow_mul_add _ hlow]
  by_cases hk : k < 16
  case pos =>
    rw [if_pos hk, Nat.testBit_two_pow_mul]
    by_cases hzero : k = 0
    · simp [hzero]
    · have hwritten : 1 ≤ k ∧ k ≤ 15 := by omega
      rw [if_pos hwritten, Nat.testBit_div_two_pow, Nat.sub_add_cancel hwritten.1, BitVec.testBit_toNat]
      simp [hwritten.1]
  case neg =>
    have hunwritten : ¬(1 ≤ k ∧ k ≤ 15) := by omega
    have hkept : k - 16 < 2 ↔ k = 16 ∨ k = 17 := by omega
    rw [if_neg hk, if_neg hunwritten, Nat.testBit_two_pow_sub_one, decide_eq_decide]
    exact hkept

/-- `RData1` has bits 0 and 1 set and the others clear, whatever is written. -/
theorem hiHalf_maskInForce (lo : Word) : hiHalf (maskInForce lo) = 3 := by
  have hquot : (maskInForce lo).toNat / 65536 = 3 := by
    have := lo.isLt
    rw [toNat_maskInForce]
    omega
  rw [hiHalf, hquot]
  rfl

/-! ## NOTICE_MASK (R163) -/

theorem exec_noticeMask (s : State) : exec .noticeMask s = .next (arrive 0x60 noticeMaskOwner s) := rfl

/-- NOTICE_MASK has no refusal: the mask and the window registers take values, and nothing else changes. -/
theorem exec_noticeMask_of_accepts {s : State} (hs : s.Accepts) :
    exec .noticeMask s = .next { s with
      notices := { s.notices with mask := maskInForce s.win.arg0 },
      win := s.win.answered 0x60
        ⟨.done, loHalf (maskInForce s.win.arg0), hiHalf (maskInForce s.win.arg0)⟩ } := by
  rw [exec_noticeMask, arrive_of_accepts hs]
  rfl

/-- Settles O34: the mask is `maskInForce` of `Arg0`, whose bits and upper half the lemmas above give. -/
theorem noticeMaskKeepsTwoKindsEnabled : Obligations.NoticeMaskKeepsTwoKindsEnabled := by
  intro s hs
  refine ⟨maskInForce s.win.arg0, fun k _ => getLsbD_maskInForce s.win.arg0 k, ?_⟩
  rw [exec_noticeMask_of_accepts hs, hiHalf_maskInForce, loHalf_eq_mod]

end Sys2Proof.Machine
end

section
/-! PROOFS. What one step can do, said once: the accepted and the refused commands of the window, the accesses of the
bus, the resets and the events of the lanes. Every invariant is then a case analysis over these. -/

namespace Sys2Proof.Machine

/-! ## What the owner of a command can do (R150) -/

/-- Everything the owner of a window command can make of the state it finds, with its answer: `s` is the state with
`Cmd` taken. The premises are the checks that the command has passed. -/
inductive Performs (code : Nat) (s : State) : State → Answer → Prop where
  | refused (result : Result) : result ≠ .done → result ≠ .accepted → Performs code s s (.plain result)
  | refusedSwap (result : Result) (slot direction : Word) : code = 0x45 → result ≠ .done → result ≠ .accepted →
      Performs code s s ⟨result, slot, direction⟩
  | answered (data0 data1 : Word) : Performs code s s ⟨.done, data0, data1⟩
  | openRing (r : RingId) (base length width : Nat) : OpenInRange base length width → (s.ring r).state = .closed →
      s.regionTaken base length = false →
      Performs code s (s.setRing r (.afterOpen base length width)) (.plain .done)
  | closeRing (r : RingId) : (s.ring r).state = .opened → (s.ring r).producer = .free → (s.ring r).consumer = .free →
      Performs code s (s.setRing r .reset) (.plain .done)
  | flush (r : RingId) : (s.ring r).state = .opened → s.activeAt r = false → Performs code s (s.flush r) (.plain .done)
  | marks (r : RingId) (low high : Nat) : (s.ring r).state = .opened → low < high → high ≤ (s.ring r).cap →
      Performs code s ((s.setRing r { s.ring r with lowMark := low, highMark := high }).rezone r) (.plain .done)
  | policy (r : RingId) (e : EmptyPolicy) (f : FullPolicy) (p : Bool) : (s.ring r).state = .opened →
      Performs code s (s.setRing r ((s.ring r).withPolicy e f p)) (.plain .done)
  | fill (r : RingId) (v : Cell) : (s.ring r).state = .opened →
      Performs code s (s.setRing r { s.ring r with fill := lowBits (s.ring r).width v }) (.plain .done)
  | clearStats (r : RingId) (data0 data1 : Word) : (s.ring r).state = .opened →
      Performs code s (s.setRing r { s.ring r with underrunCount := 0, overrunCount := 0 }) ⟨.done, data0, data1⟩
  | attach (a : Agent) (r : RingId) (side : Side) : a.fits side = true → (s.ring r).state = .opened →
      s.attachOf a = none → (s.ring r).seat side = .free → Performs code s (s.attachAgent a r side) (.plain .done)
  | detach (a : Agent) (att : Attachment) : s.attachOf a = some att → s.agentRunning a = false →
      Performs code s (s.detachAgent a att) (.plain .done)
  | setParam (n : LaneId) (param value : Nat) : laneParamOk param value = true → (s.lane n).state = .off →
      (paramMovesSeats param = true → s.laneHasSeat n = false ∧ (s.smap n).swapPending = false) →
      Performs code s (s.putParam n param value) (.plain .done)
  | startMaster (n : LaneId) : (s.lane n).state = .off → (s.lane n).cfg.role = .master →
      Performs code s (s.startMaster n) (.plain .done)
  | startFollower (n : LaneId) : (s.lane n).state = .off → (s.lane n).cfg.role = .follower →
      Performs code s (s.startFollower n) (.plain .done)
  | stop (n : LaneId) : (s.lane n).state = .running →
      Performs code s (s.setLane n { s.lane n with state := .stopping }) (.plain .accepted)
  | leave (n : LaneId) : (s.lane n).state ≠ .off → Performs code s (s.enterOff n) (.plain .done)
  | edit (n : LaneId) (b : Bank) : (s.smap n).swapPending = false →
      Performs code s (s.setSmap n ((s.smap n).setEdit b)) (.plain .done)
  | swapInOff (n : LaneId) : (s.lane n).state = .off → (s.smap n).swapPending = false → s.validateSwap n = none →
      Performs code s (s.swapInOff n) (.plain .done)
  | swapLater (n : LaneId) : (s.lane n).state ≠ .off → (s.smap n).swapPending = false → s.validateSwap n = none →
      Performs code s (s.swapLater n) (.plain .accepted)
  | cancel (n : LaneId) : (s.smap n).swapPending = true → Performs code s (s.dropSwap n) (.plain .done)
  | setDma (ch : ChanId) (setting : Nat) (value : Word) : dmaSettingOk setting value.toNat = true →
      (s.chan ch).state = .idle → Performs code s (s.setChan ch ((s.chan ch).put setting value)) (.plain .done)
  | go (ch : ChanId) : (s.chan ch).attach ≠ none → (s.chan ch).state = .idle →
      Performs code s ((s.setChan ch (s.chan ch).started).evaluate ch) (.plain .done)
  | halt (ch : ChanId) : (s.chan ch).state ≠ .idle →
      Performs code s (s.setChan ch (s.chan ch).halted) (.plain .done)
  | mask (lo : Word) (data0 data1 : Word) :
      Performs code s { s with notices := { s.notices with mask := maskInForce lo } } ⟨.done, data0, data1⟩

/-- The owner does nothing that `Performs` does not list. -/
def OwnerPerforms (code : Nat) (owner : Owner) : Prop := ∀ s, Performs code s (owner s).1 (owner s).2

theorem RingState.opened_of_ne_closed {x : RingState} (h : x ≠ .closed) : x = .opened := by
  cases x with
  | closed => exact absurd rfl h
  | opened => rfl

theorem RingState.closed_of_ne_opened {x : RingState} (h : x ≠ .opened) : x = .closed := by
  cases x with
  | closed => rfl
  | opened => exact absurd rfl h

/-! ### Rings -/

/-- A command on an OPEN ring: its first two refusals are `onOpenRing`'s. -/
theorem performs_onOpenRing {code : Nat} {f : State → RingId → State × Answer}
    (h : ∀ s r, (s.ring r).state = .opened → Performs code s (f s r).1 (f s r).2) :
    OwnerPerforms code (onOpenRing f) := by
  intro s
  unfold onOpenRing
  split
  · exact .refused _ (by decide) (by decide)
  · rename_i r _
    split
    · exact .refused _ (by decide) (by decide)
    · rename_i hopen
      exact h s r (RingState.opened_of_ne_closed hopen)

theorem performs_ringOpen : OwnerPerforms 0x10 ringOpenOwner := by
  intro s
  unfold ringOpenOwner
  dsimp only
  split
  · exact .refused _ (by decide) (by decide)
  · rename_i r _
    split
    · exact .refused _ (by decide) (by decide)
    · rename_i hrange
      split
      · exact .refused _ (by decide) (by decide)
      · rename_i hstate
        split
        · exact .refused _ (by decide) (by decide)
        · rename_i hfree
          exact .openRing r _ _ _ (not_not.mp (mt (openParams_refused_iff _ _ _).mpr hrange)) (not_not.mp hstate)
            (Bool.eq_false_of_not_eq_true hfree)

theorem performs_ringClose : OwnerPerforms 0x11 ringCloseOwner := performs_onOpenRing fun s r hopen => by
  split
  · exact .refused _ (by decide) (by decide)
  · rename_i hfree
    rw [not_or, not_not, not_not] at hfree
    exact .closeRing r hopen hfree.1 hfree.2

theorem performs_ringFlush : OwnerPerforms 0x12 ringFlushOwner := performs_onOpenRing fun s r hopen => by
  split
  · exact .refused _ (by decide) (by decide)
  · rename_i hidle
    exact .flush r hopen (Bool.eq_false_of_not_eq_true hidle)

theorem performs_ringMarks : OwnerPerforms 0x13 ringMarksOwner := performs_onOpenRing fun s r hopen => by
  dsimp only
  split
  · rename_i hmarks
    exact .marks r _ _ hopen hmarks.1 hmarks.2
  · exact .refused _ (by decide) (by decide)

theorem performs_ringPolicy : OwnerPerforms 0x14 ringPolicyOwner := performs_onOpenRing fun s r hopen => by
  split
  · exact .policy r _ _ _ hopen
  · exact .refused _ (by decide) (by decide)

theorem performs_ringFill : OwnerPerforms 0x15 ringFillOwner := performs_onOpenRing fun _ r hopen =>
  .fill r _ hopen

theorem performs_ringStatus : OwnerPerforms 0x16 ringStatusOwner := by
  intro s
  unfold ringStatusOwner
  split
  · exact .refused _ (by decide) (by decide)
  · exact .answered _ _

theorem performs_ringStats : OwnerPerforms 0x17 ringStatsOwner := by
  intro s
  unfold ringStatsOwner
  dsimp only
  split
  · rename_i r clear _ _
    split
    · exact .refused _ (by decide) (by decide)
    · rename_i hopen
      cases clear with
      | false => exact .answered _ _
      | true => exact .clearStats r _ _ (RingState.opened_of_ne_closed hopen)
  · exact .refused _ (by decide) (by decide)

theorem performs_ringPeek : OwnerPerforms 0x18 ringPeekOwner := performs_onOpenRing fun s r _ => by
  dsimp only
  split
  · exact .refused _ (by decide) (by decide)
  · exact .answered _ _

/-! ### Host agents -/

theorem performs_attach : OwnerPerforms 0x20 attachOwner := by
  intro s
  unfold attachOwner
  split
  · rename_i a r side _ _ _
    split
    · exact .refused _ (by decide) (by decide)
    · rename_i hfits
      split
      · exact .refused _ (by decide) (by decide)
      · rename_i hopen
        split
        · exact .refused _ (by decide) (by decide)
        · rename_i hidle
          split
          · exact .refused _ (by decide) (by decide)
          · rename_i hseat
            exact .attach a r side (by simpa using hfits) (not_not.mp hopen) (by simpa using hidle) (not_not.mp hseat)
  · exact .refused _ (by decide) (by decide)

theorem performs_detach : OwnerPerforms 0x21 detachOwner := by
  intro s
  unfold detachOwner
  split
  · exact .refused _ (by decide) (by decide)
  · rename_i a _
    split
    · exact .refused _ (by decide) (by decide)
    · rename_i att hatt
      split
      · exact .refused _ (by decide) (by decide)
      · rename_i hidle
        exact .detach a att hatt (Bool.eq_false_of_not_eq_true hidle)

/-! ### Lanes -/

/-- A command that names a lane: its first refusal is `onLane`'s. -/
theorem performs_onLane {code : Nat} {f : State → LaneId → State × Answer}
    (h : ∀ s n, Performs code s (f s n).1 (f s n).2) : OwnerPerforms code (onLane f) := by
  intro s
  unfold onLane
  split
  · exact .refused _ (by decide) (by decide)
  · exact h s _

theorem performs_laneSet : OwnerPerforms 0x30 laneSetOwner := by
  intro s
  unfold laneSetOwner
  dsimp only
  split
  · exact .refused _ (by decide) (by decide)
  · rename_i n _
    split
    · exact .refused _ (by decide) (by decide)
    · rename_i hok
      split
      · exact .refused _ (by decide) (by decide)
      · rename_i hoff
        split
        · exact .refused _ (by decide) (by decide)
        · rename_i hseats
          refine .setParam n _ _ (by simpa using hok) (not_not.mp hoff) fun hmoves => ?_
          simpa [hmoves] using hseats

theorem performs_laneStart : OwnerPerforms 0x31 laneStartOwner := performs_onLane fun s n => by
  split
  · exact .refused _ (by decide) (by decide)
  · rename_i hoff
    split
    · rename_i hrole
      exact .startMaster n (not_not.mp hoff) hrole
    · rename_i hrole
      exact .startFollower n (not_not.mp hoff) hrole

theorem performs_laneStop : OwnerPerforms 0x32 laneStopOwner := performs_onLane fun s n => by
  dsimp only
  split
  · rename_i hstate
    exact .stop n hstate
  · rename_i hstate
    exact .leave n (by simp [hstate])
  · rename_i hstate
    exact .leave n (by simp [hstate])
  · exact .refused _ (by decide) (by decide)
  · exact .refused _ (by decide) (by decide)

theorem performs_laneAbort : OwnerPerforms 0x33 laneAbortOwner := performs_onLane fun s n => by
  split
  · exact .refused _ (by decide) (by decide)
  · rename_i hoff
    exact .leave n hoff

/-! ### Slot maps -/

theorem performs_mapWrite : OwnerPerforms 0x40 mapWriteOwner := performs_onLane fun s n => by
  split
  · split
    · exact .refused _ (by decide) (by decide)
    · rename_i hidle
      exact .edit n _ (Bool.eq_false_of_not_eq_true hidle)
  · exact .refused _ (by decide) (by decide)

theorem performs_mapConst : OwnerPerforms 0x41 mapConstOwner := performs_onLane fun s n => by
  split
  · exact .refused _ (by decide) (by decide)
  · split
    · exact .refused _ (by decide) (by decide)
    · rename_i hidle
      exact .edit n _ (Bool.eq_false_of_not_eq_true hidle)

theorem performs_mapClear : OwnerPerforms 0x42 mapClearOwner := performs_onLane fun s n => by
  split
  · exact .refused _ (by decide) (by decide)
  · rename_i hidle
    exact .edit n _ (Bool.eq_false_of_not_eq_true hidle)

theorem performs_mapCopy : OwnerPerforms 0x43 mapCopyOwner := performs_onLane fun s n => by
  split
  · exact .refused _ (by decide) (by decide)
  · rename_i hidle
    exact .edit n _ (Bool.eq_false_of_not_eq_true hidle)

theorem performs_mapRead : OwnerPerforms 0x44 mapReadOwner := performs_onLane fun s n => by
  dsimp only
  split
  · rename_i part _ _ _
    cases part with
    | false => exact .answered _ _
    | true => exact .answered _ _
  · exact .refused _ (by decide) (by decide)

/-- The three tests of a named ring answer BAD_MAP, WIDTH_MISMATCH or SEAT_BUSY (R83). -/
theorem State.namingTest_refuses {s : State} {n : LaneId} {side : Side} {r : RingId} {result : Result}
    (h : s.namingTest n side r = some result) : result ≠ .done ∧ result ≠ .accepted := by
  unfold State.namingTest at h
  dsimp only at h
  split at h
  · cases h; decide
  · split at h
    · cases h; decide
    · split at h
      · cases h
      · cases h; decide

theorem State.entryTest_refuses {s : State} {n : LaneId} {side : Side} {e : SlotEntry} {result : Result}
    (h : s.entryTest n side e = some result) : result ≠ .done ∧ result ≠ .accepted := by
  unfold State.entryTest at h
  split at h
  · cases h
  · exact State.namingTest_refuses h

theorem State.validateFrom_refuses {s : State} {n : LaneId} {slot : Nat} {es : List SlotEntry}
    {result : Result} {i d : Word} (h : s.validateFrom n slot es = some (result, i, d)) :
    result ≠ .done ∧ result ≠ .accepted := by
  induction es generalizing slot with
  | nil => cases h
  | cons e rest ih =>
    unfold State.validateFrom at h
    split at h
    · rename_i htest
      cases h
      exact State.entryTest_refuses htest
    · split at h
      · rename_i htest
        cases h
        exact State.entryTest_refuses htest
      · exact ih h

theorem performs_mapSwap : OwnerPerforms 0x45 mapSwapOwner := performs_onLane fun s n => by
  split
  · exact .refused _ (by decide) (by decide)
  · split
    · exact .refused _ (by decide) (by decide)
    · rename_i hidle
      have hidle := Bool.eq_false_of_not_eq_true hidle
      split
      · rename_i hfails
        obtain ⟨hdone, haccepted⟩ := State.validateFrom_refuses hfails
        exact .refusedSwap _ _ _ rfl hdone haccepted
      · rename_i hpasses
        split
        · rename_i hoff
          exact .swapInOff n hoff hidle hpasses
        · rename_i hoff
          exact .swapLater n hoff hidle hpasses

theorem performs_mapCancel : OwnerPerforms 0x46 mapCancelOwner := performs_onLane fun s n => by
  split
  · rename_i hpending
    exact .cancel n hpending
  · exact .refused _ (by decide) (by decide)

/-! ### Channels and the mask -/

/-- A command that names a channel: its first refusal is `onChan`'s. -/
theorem performs_onChan {code : Nat} {f : State → ChanId → State × Answer}
    (h : ∀ s ch, Performs code s (f s ch).1 (f s ch).2) : OwnerPerforms code (onChan f) := by
  intro s
  unfold onChan
  split
  · exact .refused _ (by decide) (by decide)
  · exact h s _

theorem performs_dmaSet : OwnerPerforms 0x50 dmaSetOwner := performs_onChan fun s ch => by
  split
  · exact .refused _ (by decide) (by decide)
  · rename_i hok
    split
    · exact .refused _ (by decide) (by decide)
    · rename_i hidle
      exact .setDma ch _ _ (by simpa using hok) (not_not.mp hidle)

theorem performs_dmaGo : OwnerPerforms 0x51 dmaGoOwner := performs_onChan fun s ch => by
  split
  · exact .refused _ (by decide) (by decide)
  · rename_i hattached
    split
    · exact .refused _ (by decide) (by decide)
    · rename_i hidle
      exact .go ch hattached (not_not.mp hidle)

theorem performs_dmaHalt : OwnerPerforms 0x52 dmaHaltOwner := performs_onChan fun s ch => by
  split
  · exact .refused _ (by decide) (by decide)
  · rename_i hrunning
    exact .halt ch hrunning

theorem performs_noticeMask : OwnerPerforms 0x60 noticeMaskOwner := fun s => .mask s.win.arg0 _ _

/-- The owner of any code does nothing that `Performs` does not list. -/
theorem performs_ownerOf (code : Nat) : OwnerPerforms code (ownerOf code) := by
  unfold ownerOf
  split
  · exact performs_ringOpen
  · exact performs_ringClose
  · exact performs_ringFlush
  · exact performs_ringMarks
  · exact performs_ringPolicy
  · exact performs_ringFill
  · exact performs_ringStatus
  · exact performs_ringStats
  · exact performs_ringPeek
  · exact performs_attach
  · exact performs_detach
  · exact performs_laneSet
  · exact performs_laneStart
  · exact performs_laneStop
  · exact performs_laneAbort
  · exact performs_mapWrite
  · exact performs_mapConst
  · exact performs_mapClear
  · exact performs_mapCopy
  · exact performs_mapRead
  · exact performs_mapSwap
  · exact performs_mapCancel
  · exact performs_dmaSet
  · exact performs_dmaGo
  · exact performs_dmaHalt
  · exact performs_noticeMask
  · exact fun _ => .refused _ (by decide) (by decide)

/-! ## What a command of the window is (R150, R158) -/

/-- Every window command is a write of its code to `Cmd`. -/
theorem exec_eq_writeCmd {c : Instr} {code : Word} (h : windowCode c = some code) (s : State) :
    exec c s = .next (s.writeCmd code) := by
  cases c <;> cases h <;> rfl

theorem exec_softReset (s : State) : exec .softReset s = .next (s.writeCmd 0x70) := rfl

/-! ## What a step can be -/

/-- Everything that can become of a state by one command of the queue, or by a step on an empty queue. The premises are
what the part checks first. -/
inductive State.StepsTo (s : State) : State → Prop where
  | stays : s.StepsTo s
  | undefinedRead : s.resetLow = true → s.StepsTo s.undefinedRead
  | performed (code : Word) (t : State) (a : Answer) : s.Accepts → Performs code.toNat (s.setCmd code) t a →
      s.StepsTo (t.answer a)
  | notReady (code : Word) : s.resetLow = false → s.win.ready = false → s.StepsTo (s.onlyAnswered code (.plain .notReady))
  | softReset : s.resetLow = false → s.StepsTo s.softReset
  | argument (w : Window) : s.resetLow = false → w.ready = s.win.ready → s.StepsTo { s with win := w }
  | pop : s.resetLow = false → s.StepsTo s.popNotice
  | prFlags (v : Word) : s.resetLow = false → s.StepsTo { s with pr := s.pr.clearFlags v }
  | pwFlags (v : Word) : s.resetLow = false → s.StepsTo { s with pw := s.pw.clearFlags v }
  | chanFlags (ch : ChanId) (v : Word) : s.resetLow = false → s.StepsTo (s.setChan ch ((s.chan ch).clearStray v))
  | prRead : s.resetLow = false → s.StepsTo s.prRead
  | pwStage (v : Word) : s.resetLow = false → s.StepsTo (s.pwStage v)
  | pwPush (v : Word) : s.resetLow = false → s.StepsTo (s.pwPush v)
  | lowRead (ch : ChanId) (w : Word) : s.resetLow = false → s.StepsTo ((s.addressedLow ch none).1.drives w)
  | lowWrite (ch : ChanId) (v : Word) : s.resetLow = false → s.StepsTo (s.addressedLow ch (some v)).1
  | highWrite (ch : ChanId) (v : Word) : s.resetLow = false → s.StepsTo (s.addressedHighWrite ch v)
  | strobe (dak0 dak1 : Bool) (write : Option Word) : s.resetLow = false → s.StepsTo (s.ackStrobe dak0 dak1 write)
  | gapEnd (ch : ChanId) : s.StepsTo (s.setChan ch { s.chan ch with gap := false })
  | pinReset : s.StepsTo (s.resetWith true)
  | commandMetPin (code : Word) : s.StepsTo ((s.resetWith true).onlyAnswered code (.plain .notReady))
  | release : s.resetLow = true → s.StepsTo { s with resetLow := false, clearAddr := 0, period := 0 }
  | startupEnd : s.starting = true → s.StepsTo s.endStartup
  | startupPeriod : s.starting = true → s.StepsTo s.startupPeriod
  | syncArrival (n : LaneId) : s.StepsTo (s.syncArrival n)
  | syncCheckPoint (n : LaneId) : s.StepsTo (s.syncCheckPoint n)
  | frameStart (n : LaneId) : s.StepsTo (s.frameStartEvent n)
  | slotStart (n : LaneId) : s.StepsTo (s.slotStartEvent n)
  | slotEnd (n : LaneId) : s.StepsTo (s.slotEnd n)
  | endOfFrame (n : LaneId) : s.StepsTo (s.endOfFrame n)
  | watchExpiry (n : LaneId) : s.StepsTo (s.watchExpiry n)
  | driveEdge (n : LaneId) : s.StepsTo (s.setLane n (s.lane n).driveEdge)
  | samplingEdge (n : LaneId) (rx sync : Bool) : s.StepsTo (s.setLane n ((s.lane n).samplingEdge rx sync))

theorem State.unlessReset_of_low {s : State} (f : State → State) (h : s.resetLow = true) : s.unlessReset f = s := by
  simp [State.unlessReset, h]

theorem State.unlessReset_of_high {s : State} (f : State → State) (h : s.resetLow = false) : s.unlessReset f = f s := by
  simp [State.unlessReset, h]

/-- An access that is none while RESET_N is low (R170). -/
theorem State.stepsTo_unlessReset {s : State} {f : State → State} (h : s.resetLow = false → s.StepsTo (f s)) :
    s.StepsTo (s.unlessReset f) := by
  cases hlow : s.resetLow with
  | true => rw [State.unlessReset_of_low f hlow]; exact .stays
  | false => rw [State.unlessReset_of_high f hlow]; exact h hlow

theorem State.stepsTo_writeCmd (s : State) (code : Word) : s.StepsTo (s.writeCmd code) := by
  unfold State.writeCmd
  split
  · exact State.stepsTo_unlessReset fun h => .softReset h
  · cases hlow : s.resetLow with
    | true => rw [arrive_of_resetLow hlow]; exact .stays
    | false =>
      cases hready : s.win.ready with
      | false => rw [arrive_of_startup hlow hready]; exact .notReady code hlow hready
      | true =>
        have haccepts : s.Accepts := ⟨hlow, hready⟩
        rw [arrive_of_accepts haccepts]
        exact .performed code _ _ haccepts (performs_ownerOf code.toNat (s.setCmd code))

theorem State.stepsTo_writeRegister {s : State} (address : RegAddr) (v : Word) (h : s.resetLow = false) :
    s.StepsTo (s.writeRegister address v) := by
  unfold State.writeRegister
  split
  · exact s.stepsTo_writeCmd v
  · exact .argument _ h rfl
  · exact .argument _ h rfl
  · exact .argument _ h rfl
  · exact .argument _ h rfl
  · exact .pop h
  · exact .prFlags v h
  · exact .pwPush v h
  · exact .pwStage v h
  · exact .pwFlags v h
  · exact .lowWrite 0 v h
  · exact .highWrite 0 v h
  · exact .chanFlags 0 v h
  · exact .lowWrite 1 v h
  · exact .highWrite 1 v h
  · exact .chanFlags 1 v h
  · exact .stays

theorem State.stepsTo_ackInReset {s : State} (dak0 dak1 : Bool) (write : Option Word) (h : s.resetLow = true) :
    s.StepsTo (s.ackInReset dak0 dak1 write) := by
  unfold State.ackInReset
  split
  · split
    · exact .undefinedRead h
    · exact .stays
  · exact .stays

theorem State.stepsTo_answerMet (s : State) (code : Word) : s.StepsTo ((s.resetWith true).answerMet code) := by
  unfold State.answerMet
  split
  · exact .pinReset
  · rw [State.refuseNotReady_eq]
    exact .commandMetPin code

/-- Every command of the queue does one of the things that `StepsTo` lists. -/
theorem exec_stepsTo (c : Instr) (s : State) : ∃ t, exec c s = .next t ∧ s.StepsTo t := by
  cases hc : windowCode c with
  | some code => exact ⟨_, exec_eq_writeCmd hc s, s.stepsTo_writeCmd code⟩
  | none =>
    cases c with
    | ringOpen | ringClose | ringFlush | ringMarks | ringPolicy | ringFill | ringStatus | ringStats | ringPeek
    | attach | detach | laneSet | laneStart | laneStop | laneAbort | mapWrite | mapConst | mapClear | mapCopy
    | mapRead | mapSwap | mapCancel | dmaSet | dmaGo | dmaHalt | noticeMask | badCode => cases hc
    | softReset => exact ⟨_, rfl, State.stepsTo_unlessReset fun h => .softReset h⟩
    | prDataLoRead =>
      refine ⟨_, rfl, ?_⟩
      split
      · rename_i h; exact .undefinedRead h
      · rename_i h; exact .prRead (Bool.eq_false_of_not_eq_true h)
    | pwDataHiWrite v => exact ⟨_, rfl, State.stepsTo_unlessReset fun h => .pwStage v h⟩
    | pwDataLoWrite v => exact ⟨_, rfl, State.stepsTo_unlessReset fun h => .pwPush v h⟩
    | prFlagsWrite v => exact ⟨_, rfl, State.stepsTo_unlessReset fun h => .prFlags v h⟩
    | pwFlagsWrite v => exact ⟨_, rfl, State.stepsTo_unlessReset fun h => .pwFlags v h⟩
    | dnStatusWrite ch v => exact ⟨_, rfl, State.stepsTo_unlessReset fun h => .chanFlags ch v h⟩
    | dnDataLoRead ch =>
      refine ⟨_, rfl, ?_⟩
      split
      · rename_i h; exact .undefinedRead h
      · rename_i h; exact .lowRead ch _ (Bool.eq_false_of_not_eq_true h)
    | dnDataLoWrite ch v => exact ⟨_, rfl, State.stepsTo_unlessReset fun h => .lowWrite ch v h⟩
    | dnDataHiWrite ch v => exact ⟨_, rfl, State.stepsTo_unlessReset fun h => .highWrite ch v h⟩
    | acknowledgedStrobe dak0 dak1 write =>
      refine ⟨_, rfl, ?_⟩
      split
      · rename_i h; exact State.stepsTo_ackInReset dak0 dak1 write h
      · rename_i h; exact .strobe dak0 dak1 write (Bool.eq_false_of_not_eq_true h)
    | noticePop v => exact ⟨_, rfl, State.stepsTo_unlessReset fun h => .pop h⟩
    | registerWrite address v => exact ⟨_, rfl, State.stepsTo_unlessReset fun h => State.stepsTo_writeRegister address v h⟩
    | reset met =>
      refine ⟨_, rfl, ?_⟩
      split
      · exact .pinReset
      · split
        · exact .pinReset
        · exact s.stepsTo_answerMet _
    | resetRelease =>
      refine ⟨_, rfl, ?_⟩
      split
      · rename_i h; exact .release h
      · exact .stays
    | startupEnd =>
      refine ⟨_, rfl, ?_⟩
      split
      · rename_i h; exact .startupEnd h
      · exact .stays
    | syncArrival n => exact ⟨_, rfl, .syncArrival n⟩
    | syncCheckPoint n => exact ⟨_, rfl, .syncCheckPoint n⟩
    | frameStart n => exact ⟨_, rfl, .frameStart n⟩
    | slotStart n => exact ⟨_, rfl, .slotStart n⟩
    | slotEnd n => exact ⟨_, rfl, .slotEnd n⟩
    | endOfFrame n => exact ⟨_, rfl, .endOfFrame n⟩
    | clockWatchExpiry n => exact ⟨_, rfl, .watchExpiry n⟩
    | drqReassert ch => exact ⟨_, rfl, .gapEnd ch⟩
    | driveEdge n => exact ⟨_, rfl, .driveEdge n⟩
    | samplingEdge n rx sync => exact ⟨_, rfl, .samplingEdge n rx sync⟩

theorem State.idle_stepsTo (s : State) : s.StepsTo s.idle := by
  unfold State.idle
  split
  · rename_i h; exact .startupPeriod h
  · exact .stays

/-- Every step is one of these, on the state with the front command taken off the queue. -/
theorem step_stepsTo {s t : State} (h : step s = .next t) : ∃ rest, { s with pending := rest }.StepsTo t := by
  unfold step at h
  split at h
  · cases h
    exact ⟨s.pending, s.idle_stepsTo⟩
  · rename_i c rest _
    obtain ⟨u, hu, hsteps⟩ := exec_stepsTo c { s with pending := rest }
    rw [hu] at h
    cases h
    exact ⟨rest, hsteps⟩

end Sys2Proof.Machine
end

section
/-! PROOFS. Buffer memory, the notice unit and the ring records along every step (R1 to R5, R162 to R166). -/

namespace Sys2Proof.Machine

/-! ## Cell indices round a ring (R14, R16) -/

/-- Round the ring, the index after `i` is `i + 1` mod C. -/
theorem Ring.next_eq_mod {g : Ring} {i : Nat} (h : i < g.cap) : g.next i = (i + 1) % g.cap := by
  unfold Ring.next
  split
  · rename_i hlt
    exact (Nat.mod_eq_of_lt hlt).symm
  · have hlast : i + 1 = g.cap := by omega
    rw [hlast, Nat.mod_self]

theorem Ring.next_lt {g : Ring} (i : Nat) (h : 0 < g.cap) : g.next i < g.cap := by
  unfold Ring.next
  split <;> assumption

theorem toNat_lowBits_lt (w : Nat) (c : Cell) : (lowBits w c).toNat < 2 ^ w := by
  have hpos : 0 < 2 ^ w := Nat.two_pow_pos w
  have hmod : c.toNat % 2 ^ w < 2 ^ w := Nat.mod_lt _ hpos
  have hle : (c.toNat % 2 ^ w) % 2 ^ 32 ≤ c.toNat % 2 ^ w := Nat.mod_le _ _
  simp only [lowBits, BitVec.toNat_ofNat]
  omega

/-! ## What an OPEN ring's record satisfies (R2 to R5) -/

/-- The clauses of `Ring.Ok` for an OPEN ring, as a record. -/
structure Ring.Fits (g : Ring) : Prop where
  width : g.width = 8 ∨ g.width = 16 ∨ g.width = 32
  length : 2 ≤ g.length
  region : g.base + g.length ≤ Config.memWords
  cap : g.cap = g.length * 32 / g.width
  head : g.head < g.cap
  tail : g.tail = (g.head + g.level) % g.cap
  level : g.level ≤ g.cap
  marks : g.lowMark < g.highMark
  high : g.highMark ≤ g.cap
  zone : g.zone = g.zoneNow
  fill : g.fill.toNat < 2 ^ g.width
  lastOut : g.lastOut.toNat < 2 ^ g.width

theorem Ring.Ok.fits {g : Ring} (h : g.Ok) (ho : g.state = .opened) : g.Fits := by
  obtain ⟨hwidth, hlength, hregion, hcap, hhead, htail, hlevel, hmarks, hhigh, hzone, hfill, hlast⟩ := h.2 ho
  exact ⟨hwidth, hlength, hregion, hcap, hhead, htail, hlevel, hmarks, hhigh, hzone, hfill, hlast⟩

theorem Ring.Fits.ok {g : Ring} (h : g.Fits) (ho : g.state = .opened) : g.Ok :=
  ⟨fun hc => absurd (ho.symm.trans hc) (by decide),
   fun _ => ⟨h.width, h.length, h.region, h.cap, h.head, h.tail, h.level, h.marks, h.high, h.zone, h.fill, h.lastOut⟩⟩

theorem Ring.ok_of_closed {g : Ring} (h : g = .reset) : g.Ok := by
  subst h
  exact ⟨fun _ => rfl, fun ho => by cases ho⟩

theorem Ring.Fits.cap_pos {g : Ring} (h : g.Fits) : 0 < g.cap := Nat.lt_of_le_of_lt (Nat.zero_le _) h.head

theorem Ring.Fits.tail_lt {g : Ring} (h : g.Fits) : g.tail < g.cap := by
  rw [h.tail]
  exact Nat.mod_lt _ h.cap_pos

/-- A region of at least two words has room for a cell of any width. -/
theorem openCap_pos {length width : Nat} (hw : width = 8 ∨ width = 16 ∨ width = 32) (hl : 2 ≤ length) :
    0 < length * 32 / width := by
  rcases hw with rfl | rfl | rfl <;> omega

theorem Ring.fits_afterOpen {base length width : Nat} (h : OpenInRange base length width) :
    (Ring.afterOpen base length width).Fits where
  width := h.1
  length := h.2.1
  region := h.2.2
  cap := rfl
  head := openCap_pos h.1 h.2.1
  tail := (Nat.zero_mod _).symm
  level := Nat.zero_le _
  marks := openCap_pos h.1 h.2.1
  high := Nat.le_refl _
  zone := rfl
  fill := Nat.two_pow_pos _
  lastOut := Nat.two_pow_pos _

/-- A stored append, its Zone evaluated (R14). -/
theorem Ring.Fits.stored {g : Ring} (h : g.Fits) (hroom : g.level < g.cap) :
    ({ g.stored with zone := g.stored.zoneNow } : Ring).Fits where
  __ := h
  tail := by
    show g.next g.tail = (g.head + (g.level + 1)) % g.cap
    rw [Ring.next_eq_mod h.tail_lt, h.tail, Nat.mod_add_mod, Nat.add_assoc]
  level := hroom
  zone := rfl

/-- A removal, its Zone evaluated (R16). -/
theorem Ring.Fits.removed {g : Ring} {c : Cell} (h : g.Fits) (hc : c.toNat < 2 ^ g.width) (hcells : 0 < g.level) :
    ({ g.removed c with zone := (g.removed c).zoneNow } : Ring).Fits where
  __ := h
  head := Ring.next_lt _ h.cap_pos
  tail := by
    show g.tail = (g.next g.head + (g.level - 1)) % g.cap
    have hsum : g.head + 1 + (g.level - 1) = g.head + g.level := by omega
    rw [Ring.next_eq_mod h.head, Nat.mod_add_mod, hsum, h.tail]
  level := Nat.le_trans (Nat.sub_le _ _) h.level
  zone := rfl
  lastOut := hc

/-- On a full ring both indices advance together (R15). -/
theorem Ring.Fits.displaced {g : Ring} (h : g.Fits) :
    ({ g with head := g.next g.head, tail := g.next g.tail } : Ring).Fits where
  __ := h
  head := Ring.next_lt _ h.cap_pos
  tail := by
    show g.next g.tail = (g.next g.head + g.level) % g.cap
    have hsum : g.head + g.level + 1 = g.head + 1 + g.level := by omega
    rw [Ring.next_eq_mod h.tail_lt, Ring.next_eq_mod h.head, h.tail, Nat.mod_add_mod, Nat.mod_add_mod, hsum]

theorem Ring.Fits.flushed {g : Ring} (h : g.Fits) :
    ({ g.flushed with zone := g.flushed.zoneNow } : Ring).Fits where
  __ := h
  head := h.tail_lt
  tail := (Nat.mod_eq_of_lt h.tail_lt).symm
  level := Nat.zero_le _
  zone := rfl

theorem Ring.Fits.marked {g : Ring} {low high : Nat} (h : g.Fits) (hlt : low < high) (hle : high ≤ g.cap) :
    ({ g with lowMark := low, highMark := high,
              zone := ({ g with lowMark := low, highMark := high } : Ring).zoneNow } : Ring).Fits where
  __ := h
  marks := hlt
  high := hle
  zone := rfl

theorem Ring.Fits.filled {g : Ring} (v : Cell) (h : g.Fits) : ({ g with fill := lowBits g.width v } : Ring).Fits where
  __ := h
  fill := toNat_lowBits_lt _ v

/-! ## How one ring's record evolves -/

/-- From `g` to `g'` the record stays well formed, and an OPEN ring keeps the region it had before. -/
structure Ring.Evolves (g g' : Ring) : Prop where
  ok : g.Ok → g'.Ok
  region : g'.state = .opened → g.state = .opened ∧ g'.base = g.base ∧ g'.length = g.length

theorem Ring.Evolves.refl (g : Ring) : g.Evolves g := ⟨id, fun h => ⟨h, rfl, rfl⟩⟩

theorem Ring.Evolves.trans {g h k : Ring} (h1 : g.Evolves h) (h2 : h.Evolves k) : g.Evolves k where
  ok hg := h2.ok (h1.ok hg)
  region hk := by
    obtain ⟨hh, hbase, hlength⟩ := h2.region hk
    obtain ⟨hg, hbase', hlength'⟩ := h1.region hh
    exact ⟨hg, hbase.trans hbase', hlength.trans hlength'⟩

theorem Ring.evolves_reset (g : Ring) : g.Evolves .reset := ⟨fun _ => Ring.ok_of_closed rfl, fun h => by cases h⟩

/-- An OPEN ring's record that keeps its state and region, and stays well formed. -/
theorem Ring.evolves_of_fits {g g' : Ring} (ho : g.state = .opened) (hs : g'.state = g.state) (hb : g'.base = g.base)
    (hl : g'.length = g.length) (h : g.Fits → g'.Fits) : g.Evolves g' :=
  ⟨fun hg => (h (hg.fits ho)).ok (hs.trans ho), fun _ => ⟨ho, hb, hl⟩⟩

/-! ## How the notice unit evolves -/

structure NoticeUnit.Evolves (u u' : NoticeUnit) : Prop where
  queue : u.Ok → u'.Ok
  mask : u.MaskOk → u'.MaskOk

theorem NoticeUnit.Evolves.refl (u : NoticeUnit) : u.Evolves u := ⟨id, id⟩

theorem NoticeUnit.Evolves.trans {u v w : NoticeUnit} (h1 : u.Evolves v) (h2 : v.Evolves w) : u.Evolves w :=
  ⟨fun h => h2.queue (h1.queue h), fun h => h2.mask (h1.mask h)⟩

theorem NoticeUnit.evolves_post (u : NoticeUnit) (x : Notice) : u.Evolves (u.post x) :=
  ⟨NoticeUnit.ok_post x, fun h => by rwa [NoticeUnit.MaskOk, NoticeUnit.mask_post]⟩

theorem NoticeUnit.evolves_pop (u : NoticeUnit) : u.Evolves u.pop :=
  ⟨NoticeUnit.ok_pop, fun h => by rwa [NoticeUnit.MaskOk, NoticeUnit.mask_pop]⟩

theorem NoticeUnit.ok_reset : NoticeUnit.reset.Ok := ⟨Nat.zero_le _, fun h => absurd rfl h⟩

theorem NoticeUnit.maskOk_reset : NoticeUnit.reset.MaskOk := rfl

theorem NoticeUnit.evolves_reset (u : NoticeUnit) : u.Evolves .reset := ⟨fun _ => ok_reset, fun _ => maskOk_reset⟩

/-- Whatever is written, codes 16 and 17 are enabled and the bits that name no kind are 0 (R163). -/
theorem maskOk_maskInForce (lo : Word) : maskInForce lo &&& 0xFFFF0001#32 = 0x00030000#32 := by
  have hunwritten : ∀ k, k < 32 → (0xFFFF0001#32).getLsbD k = decide (k = 0 ∨ 16 ≤ k) := by decide
  have hkept : ∀ k, k < 32 → (0x00030000#32).getLsbD k = decide (k = 16 ∨ k = 17) := by decide
  refine BitVec.eq_of_getLsbD_eq fun k hk => ?_
  rw [BitVec.getLsbD_and, getLsbD_maskInForce, hunwritten k hk, hkept k hk]
  by_cases hwritten : 1 ≤ k ∧ k ≤ 15
  · have h1 : ¬(k = 0 ∨ 16 ≤ k) := by omega
    have h2 : ¬(k = 16 ∨ k = 17) := by omega
    simp [h1, h2]
  · have h1 : k = 0 ∨ 16 ≤ k := by omega
    simp [hwritten, h1]

theorem NoticeUnit.evolves_mask (u : NoticeUnit) {m : BitVec 32} (hm : m &&& 0xFFFF0001#32 = 0x00030000#32) :
    u.Evolves { u with mask := m } :=
  ⟨id, fun _ => hm⟩

/-! ## How the part evolves -/

theorem State.memoryOk_of_eq {s t : State} (h : t.mem = s.mem) (hs : s.MemoryOk) : t.MemoryOk := by
  rw [State.MemoryOk, h]
  exact hs

/-- From `s` to `t` memory keeps its canonical form, the notice unit its bounds, the ring records their form, and OPEN
rings stay apart. -/
structure State.Keeps (s t : State) : Prop where
  memory : s.MemoryOk → t.MemoryOk
  notices : s.notices.Evolves t.notices
  rings : s.RingsOk → t.RingsOk
  regions : s.RegionsDisjoint → t.RegionsDisjoint

/-- The part stays in READY or in STARTUP, and start-up does not go on. -/
structure State.SameClock (s t : State) : Prop where
  resetLow : t.resetLow = s.resetLow
  ready : t.win.ready = s.win.ready
  clearAddr : t.clearAddr = s.clearAddr
  period : t.period = s.period

/-- What a block of the part may do to it: no reset, and no period of start-up. -/
structure State.Evolves (s t : State) : Prop extends s.Keeps t, s.SameClock t

/-- What an access of the ring table, a port or a channel may do: lanes and slot maps are out of its reach. -/
structure State.MovesData (s t : State) : Prop extends s.Evolves t where
  lanes : t.lanes = s.lanes
  maps : t.maps = s.maps

theorem State.Keeps.refl (s : State) : s.Keeps s := ⟨id, .refl _, id, id⟩

theorem State.Keeps.trans {s t u : State} (h1 : s.Keeps t) (h2 : t.Keeps u) : s.Keeps u :=
  ⟨fun h => h2.memory (h1.memory h), h1.notices.trans h2.notices, fun h => h2.rings (h1.rings h),
   fun h => h2.regions (h1.regions h)⟩

theorem State.SameClock.trans {s t u : State} (h1 : s.SameClock t) (h2 : t.SameClock u) : s.SameClock u :=
  ⟨h2.resetLow.trans h1.resetLow, h2.ready.trans h1.ready, h2.clearAddr.trans h1.clearAddr, h2.period.trans h1.period⟩

theorem State.Evolves.refl (s : State) : s.Evolves s := ⟨.refl s, rfl, rfl, rfl, rfl⟩

theorem State.Evolves.trans {s t u : State} (h1 : s.Evolves t) (h2 : t.Evolves u) : s.Evolves u :=
  ⟨h1.toKeeps.trans h2.toKeeps, h1.toSameClock.trans h2.toSameClock⟩

theorem State.MovesData.refl (s : State) : s.MovesData s := ⟨.refl s, rfl, rfl⟩

theorem State.MovesData.trans {s t u : State} (h1 : s.MovesData t) (h2 : t.MovesData u) : s.MovesData u :=
  ⟨h1.toEvolves.trans h2.toEvolves, h2.lanes.trans h1.lanes, h2.maps.trans h1.maps⟩

/-- Ring by ring: no ring opens, and each record evolves. -/
theorem State.Keeps.of_rings {s t : State} (hm : s.MemoryOk → t.MemoryOk) (hn : s.notices.Evolves t.notices)
    (hr : ∀ r, (s.ring r).Evolves (t.ring r)) : s.Keeps t where
  memory := hm
  notices := hn
  rings h r := (hr r).ok (h r)
  regions h r q hne hor hoq := by
    obtain ⟨hsr, hbase, hlength⟩ := (hr r).region hor
    obtain ⟨hsq, hbase', hlength'⟩ := (hr q).region hoq
    rw [hbase, hlength, hbase', hlength']
    exact h r q hne hsr hsq

/-- What leaves memory, notices and rings alone. -/
theorem State.Keeps.of_same {s t : State} (hm : t.mem = s.mem) (hn : t.notices = s.notices)
    (hr : t.rings = s.rings) : s.Keeps t := by
  refine .of_rings (State.memoryOk_of_eq hm) (by rw [hn]; exact .refl _) fun r => ?_
  have hring : t.ring r = s.ring r := congrArg (·[r.val]) hr
  rw [hring]
  exact .refl _

/-- Ring by ring, where no more than memory, notices, rings and channels change. -/
theorem State.MovesData.of_rings {s t : State}
    (hf : ∃ mem notices rings chans, t = { s with mem := mem, notices := notices, rings := rings, chans := chans })
    (hm : s.MemoryOk → t.MemoryOk) (hn : s.notices.Evolves t.notices) (hr : ∀ r, (s.ring r).Evolves (t.ring r)) :
    s.MovesData t := by
  have hkeeps : s.Keeps t := .of_rings hm hn hr
  obtain ⟨mem, notices, rings, chans, rfl⟩ := hf
  exact ⟨⟨hkeeps, rfl, rfl, rfl, rfl⟩, rfl, rfl⟩

/-- One ring's record changes, and perhaps memory, notices and channels. -/
theorem State.MovesData.of_ring {s t : State} {r : RingId}
    (hf : ∃ mem notices rings chans, t = { s with mem := mem, notices := notices, rings := rings, chans := chans })
    (hm : s.MemoryOk → t.MemoryOk) (hn : s.notices.Evolves t.notices) (hr : (s.ring r).Evolves (t.ring r))
    (hq : s.SameRingsBut t r) : s.MovesData t := by
  refine .of_rings hf hm hn fun q => ?_
  by_cases hqr : q = r
  · subst hqr; exact hr
  · rw [hq q hqr]; exact .refl _

theorem State.moves_with_notices (s : State) {u : NoticeUnit} (h : s.notices.Evolves u) :
    s.MovesData { s with notices := u } :=
  .of_rings ⟨_, _, _, _, rfl⟩ (State.memoryOk_of_eq rfl) h fun _ => .refl _

theorem State.moves_post (s : State) (x : Notice) : s.MovesData (s.post x) :=
  s.moves_with_notices (s.notices.evolves_post x)

theorem State.moves_setRing (s : State) (r : RingId) (g : Ring) (h : (s.ring r).Evolves g) :
    s.MovesData (s.setRing r g) :=
  .of_ring (r := r) ⟨_, _, _, _, rfl⟩ (State.memoryOk_of_eq rfl) (.refl _) (by simpa using h) fun q hq => by simp [hq]

/-- A Zone evaluated again after a change of the record `g` that the marks and the level follow (R4). -/
theorem State.moves_setRing_rezone (s : State) (r : RingId) (g : Ring)
    (h : (s.ring r).Evolves { g with zone := g.zoneNow }) : s.MovesData ((s.setRing r g).rezone r) := by
  refine .of_ring (r := r) ⟨_, _, _, _, State.rezone_frame _ r⟩ (State.memoryOk_of_eq (State.mem_rezone _ r)) ?_
    (by simpa using h) fun q hq => by simp [hq]
  rw [State.notices_rezone]
  split
  · exact .refl _
  · split
    · exact NoticeUnit.evolves_post _ _
    · exact NoticeUnit.evolves_post _ _
    · exact .refl _

theorem State.moves_with_chans (s : State) (c : Vector Channel 2) : s.MovesData { s with chans := c } :=
  .of_rings ⟨_, _, _, _, rfl⟩ (State.memoryOk_of_eq rfl) (.refl _) fun _ => .refl _

theorem State.moves_report (s : State) (r : RingId) : s.MovesData (s.report r) := by
  rw [State.report_frame]
  exact s.moves_with_chans _

theorem State.moves_evaluate (s : State) (ch : ChanId) : s.MovesData (s.evaluate ch) := by
  rw [State.evaluate_frame]
  exact s.moves_with_chans _

theorem State.moves_with_pr (s : State) (p : ReadPort) : s.MovesData { s with pr := p } :=
  ⟨⟨.of_same rfl rfl rfl, rfl, rfl, rfl, rfl⟩, rfl, rfl⟩

theorem State.moves_with_pw (s : State) (p : WritePort) : s.MovesData { s with pw := p } :=
  ⟨⟨.of_same rfl rfl rfl, rfl, rfl, rfl, rfl⟩, rfl, rfl⟩

theorem State.moves_drives (s : State) (w : Word) : s.MovesData (s.drives w) :=
  ⟨⟨.of_same rfl rfl rfl, rfl, rfl, rfl, rfl⟩, rfl, rfl⟩

theorem State.moves_with_freeCount (s : State) (k : Nat) : s.MovesData { s with freeCount := k } :=
  ⟨⟨.of_same rfl rfl rfl, rfl, rfl, rfl, rfl⟩, rfl, rfl⟩

/-! ### Claims (R14 to R22) -/

theorem State.moves_writeCell (s : State) (base width i : Nat) (c : Cell) :
    s.MovesData { s with mem := Memory.writeCell s.mem base width i c } :=
  .of_rings ⟨_, _, _, _, rfl⟩ (Memory.wf_writeCell base width i c) (.refl _) fun _ => .refl _

theorem State.moves_storeCell {s : State} {r : RingId} (c : Cell) (ho : (s.ring r).state = .opened)
    (hroom : (s.ring r).level < (s.ring r).cap) : s.MovesData (s.storeCell r c) := by
  have hstored : (s.ring r).Evolves { (s.ring r).stored with zone := (s.ring r).stored.zoneNow } :=
    Ring.evolves_of_fits ho rfl rfl rfl fun h => h.stored hroom
  exact ((s.moves_writeCell _ _ _ c).trans (State.moves_setRing_rezone _ r _ hstored)).trans
    (State.moves_report _ r)

theorem State.moves_displaceCell {s : State} {r : RingId} (c : Cell) (ho : (s.ring r).state = .opened) :
    s.MovesData (s.displaceCell r c) :=
  (s.moves_writeCell _ _ _ c).trans
    (State.moves_setRing _ r _ (Ring.evolves_of_fits ho rfl rfl rfl Ring.Fits.displaced))

/-- A change of an OPEN ring's record that no clause of its well-formedness speaks of. -/
theorem Ring.evolves_bookkeeping {g g' : Ring} (ho : g.state = .opened)
    (h : g' = { g with prime := g'.prime, primed := g'.primed, emptyPolicy := g'.emptyPolicy,
                       fullPolicy := g'.fullPolicy, underrunEpisode := g'.underrunEpisode,
                       overrunEpisode := g'.overrunEpisode, underrunCount := g'.underrunCount,
                       overrunCount := g'.overrunCount, producer := g'.producer, consumer := g'.consumer }) :
    g.Evolves g' := by
  rw [h]
  exact Ring.evolves_of_fits ho rfl rfl rfl fun hf => { hf with }

theorem State.moves_primeFull {s : State} {r : RingId} (ho : (s.ring r).state = .opened) :
    s.MovesData (s.primeFull r) :=
  State.moves_setRing s r _ (Ring.evolves_bookkeeping ho rfl)

theorem State.moves_countOverrun {s : State} {r : RingId} (n : LaneId) (ho : (s.ring r).state = .opened) :
    s.MovesData (s.countOverrun r n) := by
  have hset := State.moves_setRing s r
    { s.ring r with overrunCount := satIncWord (s.ring r).overrunCount, overrunEpisode := true }
    (Ring.evolves_bookkeeping ho rfl)
  unfold State.countOverrun
  dsimp only
  split
  · exact hset
  · exact hset.trans (State.moves_post _ _)

theorem State.moves_countUnderrun {s : State} {r : RingId} (n : LaneId) (ho : (s.ring r).state = .opened) :
    s.MovesData (s.countUnderrun r n) := by
  unfold State.countUnderrun
  dsimp only
  split
  · exact State.moves_setRing s r _ (Ring.evolves_bookkeeping ho rfl)
  · exact (State.moves_setRing s r _ (Ring.evolves_bookkeeping ho rfl)).trans (State.moves_post _ _)

theorem State.moves_appendClaim (s : State) (r : RingId) (c : Cell) (who : Appender) :
    s.MovesData (s.appendClaim r c who).1 := by
  unfold State.appendClaim
  dsimp only
  split
  · exact .refl s
  · rename_i hclosed
    have ho := RingState.opened_of_ne_closed hclosed
    split
    · rename_i hroom
      dsimp only
      exact State.moves_storeCell c ho hroom
    · split
      · dsimp only
        exact State.moves_primeFull ho
      · split
        · dsimp only
          exact (State.moves_primeFull ho).trans
            (State.moves_countOverrun _ (by simpa [State.primeFull] using ho))
        · dsimp only
          exact ((State.moves_displaceCell c ho).trans
            (State.moves_primeFull (by simpa [State.displaceCell] using ho))).trans
            (State.moves_countOverrun _ (by simpa [State.primeFull, State.displaceCell] using ho))

theorem State.moves_removeCell {s : State} {r : RingId} (ho : (s.ring r).state = .opened)
    (hcells : 0 < (s.ring r).level) : s.MovesData (s.removeCell r) := by
  have hremoved : (s.ring r).Evolves { (s.ring r).removed (s.headCell r) with
      zone := ((s.ring r).removed (s.headCell r)).zoneNow } :=
    Ring.evolves_of_fits ho rfl rfl rfl fun h => h.removed (Memory.readCell_lt _ h.width) hcells
  exact (State.moves_setRing_rezone s r _ hremoved).trans (State.moves_report _ r)

theorem State.moves_removeForHost (s : State) (r : RingId) : s.MovesData (s.removeForHost r).1 := by
  unfold State.removeForHost
  dsimp only
  split
  · exact .refl s
  · rename_i hclosed
    split
    · rename_i hcells
      dsimp only
      exact State.moves_removeCell (RingState.opened_of_ne_closed hclosed) hcells
    · exact .refl s

theorem State.moves_removeForLane (s : State) (r : RingId) (n : LaneId) :
    s.MovesData (s.removeForLane r n).1 := by
  unfold State.removeForLane
  dsimp only
  split
  · exact .refl s
  · rename_i hclosed
    have ho := RingState.opened_of_ne_closed hclosed
    split
    · exact .refl s
    · split
      · rename_i hcells
        dsimp only
        exact State.moves_removeCell ho hcells
      · dsimp only
        exact State.moves_countUnderrun n ho

/-! ### Ports and channels -/

theorem State.moves_setChan (s : State) (ch : ChanId) (c : Channel) : s.MovesData (s.setChan ch c) :=
  s.moves_with_chans _

theorem State.moves_postPortFault (s : State) (source : Source) (detail : Byte) (was : Bool) :
    s.MovesData (s.postPortFault source detail was) := by
  unfold State.postPortFault
  split
  · exact .refl s
  · exact s.moves_post _

theorem State.moves_setPrStray (s : State) : s.MovesData s.setPrStray := by
  unfold State.setPrStray
  split
  · exact (s.moves_with_pr _).trans (State.moves_postPortFault _ _ _ _)
  · exact .refl s

theorem State.moves_setPwStray (s : State) : s.MovesData s.setPwStray := by
  unfold State.setPwStray
  split
  · exact (s.moves_with_pw _).trans (State.moves_postPortFault _ _ _ _)
  · exact .refl s

theorem State.moves_setUnderflow (s : State) : s.MovesData s.setUnderflow :=
  (s.moves_with_pr _).trans (State.moves_postPortFault _ _ _ _)

theorem State.moves_setOverflow (s : State) : s.MovesData s.setOverflow :=
  (s.moves_with_pw _).trans (State.moves_postPortFault _ _ _ _)

theorem State.moves_latchPr (s : State) (r : RingId) (c : Cell) : s.MovesData (s.latchPr r c) := by
  unfold State.latchPr
  split
  · exact s.moves_with_pr _
  · exact .refl s

theorem State.moves_prRead (s : State) : s.MovesData s.prRead := by
  unfold State.prRead
  split
  · exact s.moves_setPrStray.trans (State.moves_drives _ 0)
  · rename_i a _
    have hread : s.MovesData (((s.removeForHost a.ring).1.latchPr a.ring (s.removeForHost a.ring).2.1).drives
        (loHalf (s.removeForHost a.ring).2.1)) :=
      ((s.moves_removeForHost a.ring).trans (State.moves_latchPr _ _ _)).trans (State.moves_drives _ _)
    dsimp only
    split
    · exact hread
    · exact hread.trans (State.moves_setUnderflow _)

theorem State.moves_pwStage (s : State) (v : Word) : s.MovesData (s.pwStage v) := by
  unfold State.pwStage
  split
  · exact s.moves_setPwStray
  · split
    · exact s.moves_with_pw _
    · exact .refl s

theorem State.moves_pwPush (s : State) (v : Word) : s.MovesData (s.pwPush v) := by
  unfold State.pwPush
  split
  · exact s.moves_setPwStray
  · rename_i a _
    dsimp only
    have happend := s.moves_appendClaim a.ring (formCell (s.ring a.ring).width s.pw.staging v) .host
    split
    · exact happend.trans (State.moves_with_pw _ _)
    · exact (happend.trans (State.moves_with_pw _ _)).trans (State.moves_setOverflow _)

theorem State.moves_setChanStray (s : State) (ch : ChanId) : s.MovesData (s.setChanStray ch) := by
  unfold State.setChanStray
  split
  · exact s.moves_setChan ch _
  · exact .refl s

theorem State.moves_postWrap (s : State) (ch : ChanId) : s.MovesData (s.postWrap ch) := by
  unfold State.postWrap
  split
  · exact s.moves_post _
  · exact .refl s

theorem State.moves_completeAccess (s : State) (ch : ChanId) : s.MovesData (s.completeAccess ch) := by
  have hwrap : s.MovesData ((s.setChan ch (s.chan ch).stepped).postWrap ch) :=
    (s.moves_setChan ch _).trans (State.moves_postWrap _ ch)
  unfold State.completeAccess
  dsimp only
  split
  · exact (hwrap.trans (State.moves_setChan _ ch _)).trans (State.moves_post _ _)
  · split
    · exact (hwrap.trans (State.moves_evaluate _ ch)).trans (State.moves_setChan _ ch _)
    · exact hwrap

theorem State.moves_strayAccess (s : State) (ch : ChanId) (r : RingId) (write : Option Word) :
    s.MovesData (s.strayAccess ch r write).1 := by
  unfold State.strayAccess
  dsimp only
  split
  · exact (s.moves_setChan ch _).trans (State.moves_post _ _)
  · exact (s.moves_setChan ch _).trans (State.moves_post _ _)

theorem State.moves_chanRemove (s : State) (ch : ChanId) (r : RingId) : s.MovesData (s.chanRemove ch r).1 := by
  unfold State.chanRemove
  dsimp only
  exact ((s.moves_removeForHost r).trans (State.moves_setChan _ ch _)).trans (State.moves_completeAccess _ ch)

theorem State.moves_chanAppend (s : State) (ch : ChanId) (r : RingId) (v : Word) :
    s.MovesData (s.chanAppend ch r v) := by
  unfold State.chanAppend
  dsimp only
  exact ((s.moves_appendClaim r _ _).trans (State.moves_setChan _ ch _)).trans (State.moves_completeAccess _ ch)

theorem State.moves_lowAccess (s : State) (ch : ChanId) (write : Option Word) :
    s.MovesData (s.lowAccess ch write).1 := by
  unfold State.lowAccess
  dsimp only
  split
  · exact s.moves_setChanStray ch
  · split
    · exact s.moves_setChanStray ch
    · split
      · exact s.moves_strayAccess ch _ write
      · split
        · exact s.moves_chanRemove ch _
        · dsimp only
          exact s.moves_chanAppend ch _ _
        · exact .refl s

theorem State.moves_highAccess (s : State) (ch : ChanId) (side : Side) (write : Option Word) :
    s.MovesData (s.highAccess ch side write).1 := by
  unfold State.highAccess
  dsimp only
  split
  · exact .refl s
  · exact .refl s
  · exact .refl s
  · split
    · exact s.moves_setChan ch _
    · exact s.moves_setChanStray ch

theorem State.moves_addressedLow (s : State) (ch : ChanId) (write : Option Word) :
    s.MovesData (s.addressedLow ch write).1 := by
  unfold State.addressedLow
  split
  · exact .refl s
  · exact s.moves_lowAccess ch write

theorem State.moves_addressedHighWrite (s : State) (ch : ChanId) (v : Word) :
    s.MovesData (s.addressedHighWrite ch v) := by
  unfold State.addressedHighWrite
  split
  · exact .refl s
  · split
    · exact s.moves_setChanStray ch
    · split
      · exact s.moves_highAccess ch _ _
      · exact .refl s

theorem State.moves_ackAccess (s : State) (ch : ChanId) (write : Option Word) :
    s.MovesData (s.ackAccess ch write).1 := by
  unfold State.ackAccess
  dsimp only
  split
  · exact .refl s
  · split
    · exact s.moves_lowAccess ch write
    · split
      · split
        · exact (s.moves_setChan ch _).trans (State.moves_highAccess _ ch _ write)
        · exact (s.moves_setChan ch _).trans (State.moves_lowAccess _ ch write)
      · exact s.moves_lowAccess ch write

theorem State.moves_drivesIfRead (s : State) (write : Option Word) (w : Word) :
    s.MovesData (s.drivesIfRead write w) := by
  cases write with
  | none => exact s.moves_drives w
  | some _ => exact .refl s

theorem State.moves_ackStrobe (s : State) (dak0 dak1 : Bool) (write : Option Word) :
    s.MovesData (s.ackStrobe dak0 dak1 write) := by
  unfold State.ackStrobe
  split
  · exact .refl s
  · exact (s.moves_ackAccess 0 write).trans (State.moves_drivesIfRead _ _ _)
  · exact (s.moves_ackAccess 1 write).trans (State.moves_drivesIfRead _ _ _)
  · exact (((s.moves_with_freeCount _).trans (State.moves_ackAccess _ _ write)).trans (State.moves_ackAccess _ _ write)).trans
      (State.moves_drivesIfRead _ _ _)

/-! ### Slot maps -/

/-- A change of seats that frees no seat of a CLOSED ring to anything but FREE keeps the records (R2). -/
theorem State.moves_mapSeats (s : State) (f : Side → RingId → Seat → Seat)
    (h : ∀ side r, (s.ring r).state = .closed → f side r .free = .free) : s.MovesData (s.mapSeats f) := by
  have hnotices : (s.mapSeats f).notices = s.notices := State.notices_mapRings s _
  refine .of_rings ⟨_, _, _, _, State.mapSeats_frame s f⟩ (State.memoryOk_of_eq (State.mem_mapRings s _)) (by rw [hnotices]; exact .refl _) fun r => ?_
  rw [State.ring_mapSeats]
  by_cases ho : (s.ring r).state = .opened
  · exact Ring.evolves_bookkeeping ho rfl
  · have hc := RingState.closed_of_ne_opened ho
    refine ⟨fun hok => Ring.ok_of_closed ?_, fun h' => absurd h' ho⟩
    have hreset := hok.1 hc
    have hprod : f .producer r (s.ring r).producer = .free := by rw [hreset]; exact h _ _ hc
    have hcons : f .consumer r (s.ring r).consumer = .free := by rw [hreset]; exact h _ _ hc
    rw [hprod, hcons, hreset]
    rfl

theorem State.evolves_setSmap (s : State) (n : LaneId) (m : SlotMap) : s.Evolves (s.setSmap n m) :=
  ⟨.of_same rfl rfl rfl, rfl, rfl, rfl, rfl⟩

theorem State.evolves_setLane (s : State) (n : LaneId) (l : Lane) : s.Evolves (s.setLane n l) :=
  ⟨.of_same rfl rfl rfl, rfl, rfl, rfl, rfl⟩

theorem Seat.releaseBy_free (n : LaneId) (named : Bool) : Seat.free.releaseBy n named = .free := by
  cases named <;> rfl

theorem State.moves_releaseSeats (s : State) (n : LaneId) : s.MovesData (s.releaseSeats n) :=
  State.moves_mapSeats s _ fun _ _ _ => Seat.releaseBy_free n _

theorem State.evolves_exchange (s : State) (n : LaneId) (frame : Option Word) :
    s.Evolves (s.exchange n frame) := by
  have hswap : s.Evolves (s.setSmap n (s.smap n).swapLive) := s.evolves_setSmap n _
  have htake := hswap.trans (State.moves_mapSeats _ (fun _ _ seat => seat.takeBy n) fun _ _ _ => rfl).toEvolves
  have hrelease := htake.trans (State.moves_releaseSeats _ n).toEvolves
  exact (hrelease.trans (State.evolves_setSmap _ n _)).trans (State.moves_post _ _).toEvolves

theorem State.evolves_dropSwap (s : State) (n : LaneId) : s.Evolves (s.dropSwap n) :=
  (State.moves_mapSeats s (fun _ _ seat => seat.unreserve n) fun _ _ _ => rfl).toEvolves.trans (State.evolves_setSmap _ n _)

theorem State.evolves_cancelSwap (s : State) (n : LaneId) : s.Evolves (s.cancelSwap n) := by
  unfold State.cancelSwap
  split
  · exact (s.evolves_dropSwap n).trans (State.moves_post _ _).toEvolves
  · exact .refl s

/-- A ring that a counted entry of a validated edit bank names is OPEN (R83). -/
theorem State.opened_of_validateSwap {s : State} {n : LaneId} {side : Side} {r : RingId} (h : s.validateSwap n = none)
    (hnamed : bankNames (s.smap n).editBank (s.lane n).cfg.slots side r = true) :
    s.namingTest n side r = none := by
  obtain ⟨i, hi, hnames⟩ := (bankNames_iff _ _ _ _).mp hnamed
  obtain ⟨hcons, hprod⟩ := (s.validateSwap_eq_none_iff n).mp h i hi
  unfold State.entryTest at hcons hprod
  cases side with
  | producer => rw [hnames] at hprod; exact hprod
  | consumer => rw [hnames] at hcons; exact hcons

theorem State.opened_of_namingTest {s : State} {n : LaneId} {side : Side} {r : RingId}
    (h : s.namingTest n side r = none) :
    (s.ring r).state = .opened ∧ (s.ring r).width = (s.lane n).cfg.width ∧
      ((s.ring r).seat side = .free ∨ (s.ring r).seat side = .held (.lane n)) := by
  unfold State.namingTest at h
  dsimp only at h
  split at h
  · cases h
  · rename_i hopen
    split at h
    · cases h
    · rename_i hwidth
      split at h
      · rename_i hseat
        exact ⟨not_not.mp hopen, not_not.mp hwidth, hseat⟩
      · cases h

theorem State.moves_reserveSeats {s : State} {n : LaneId} (h : s.validateSwap n = none) :
    s.MovesData (s.reserveSeats n) := by
  refine State.moves_mapSeats s _ fun side r hc => ?_
  have hunnamed : bankNames (s.smap n).editBank (s.lane n).cfg.slots side r = false := by
    by_contra hnamed
    have hopen := (State.opened_of_namingTest
      (State.opened_of_validateSwap h (Bool.eq_true_of_not_eq_false hnamed))).1
    rw [hc] at hopen
    cases hopen
  rw [hunnamed]
  rfl

/-! ### Lanes -/

theorem State.evolves_enterOff (s : State) (n : LaneId) : s.Evolves (s.enterOff n) :=
  (s.evolves_setLane n _).trans (State.evolves_cancelSwap _ n)

theorem State.evolves_completeStop (s : State) (n : LaneId) : s.Evolves (s.completeStop n) :=
  (s.moves_post _).toEvolves.trans (State.evolves_enterOff _ n)

theorem State.evolves_earlyStop (s : State) (n : LaneId) (cause : LossCause) : s.Evolves (s.earlyStop n cause) :=
  ((s.evolves_setLane n _).trans (State.moves_post _ _).toEvolves).trans (State.evolves_enterOff _ n)

theorem State.moves_postMark (s : State) (n : LaneId) (i : Nat) (e : SlotEntry) : s.MovesData (s.postMark n i e) := by
  unfold State.postMark
  split
  · exact s.moves_post _
  · exact .refl s

theorem State.moves_transmitHalf (s : State) (n : LaneId) (e : SlotEntry) :
    s.MovesData (s.transmitHalf n e).1 := by
  unfold State.transmitHalf
  split
  · exact .refl s
  · exact .refl s
  · exact s.moves_removeForLane e.txRing n

theorem State.evolves_slotStart (s : State) (n : LaneId) (i : Nat) : s.Evolves (s.slotStart n i) :=
  ((s.moves_postMark n i _).toEvolves.trans (State.moves_transmitHalf _ n _).toEvolves).trans (State.evolves_setLane _ n _)

theorem State.moves_postLock (s : State) (n : LaneId) (k : Option LockKind) : s.MovesData (s.postLock n k) := by
  cases k with
  | none => exact .refl s
  | some k => exact s.moves_post _

theorem State.evolves_exchangeIfPending (s : State) (n : LaneId) : s.Evolves (s.exchangeIfPending n) := by
  unfold State.exchangeIfPending
  split
  · exact s.evolves_exchange n _
  · exact .refl s

theorem State.evolves_frameStart (s : State) (n : LaneId) : s.Evolves (s.frameStart n) :=
  (((s.evolves_setLane n _).trans (State.moves_postLock _ n _).toEvolves).trans
    (State.evolves_exchangeIfPending _ n)).trans (State.evolves_slotStart _ n 0)

theorem State.evolves_frameStartSampled (s : State) (n : LaneId) : s.Evolves (s.frameStartSampled n) :=
  (s.evolves_frameStart n).trans (State.evolves_setLane _ n _)

theorem State.evolves_lock (s : State) (n : LaneId) (k : LockKind) : s.Evolves (s.lock n k) := by
  unfold State.lock
  dsimp only
  split
  · exact s.evolves_setLane n _
  · exact (s.evolves_setLane n _).trans (State.evolves_frameStartSampled _ n)

theorem State.evolves_enterHunt (s : State) (n : LaneId) (cause : LossCause) : s.Evolves (s.enterHunt n cause) := by
  unfold State.enterHunt
  dsimp only
  split
  · exact ((s.evolves_setLane n _).trans (State.moves_post _ _).toEvolves).trans (State.evolves_lock _ n _)
  · exact (s.evolves_setLane n _).trans (State.moves_post _ _).toEvolves

theorem State.evolves_syncArrival (s : State) (n : LaneId) : s.Evolves (s.syncArrival n) := by
  unfold State.syncArrival
  dsimp only
  split
  · split
    · exact .refl s
    · split
      · exact (s.evolves_setLane n _).trans (State.evolves_lock _ n _)
      · exact s.evolves_setLane n _
    · split
      · exact (s.evolves_setLane n _).trans (State.evolves_lock _ n _)
      · exact s.evolves_setLane n _
    · exact (s.evolves_setLane n _).trans (State.evolves_enterHunt _ n _)
    · exact (s.evolves_setLane n _).trans (State.evolves_earlyStop _ n _)
  · exact .refl s

theorem State.evolves_afterCheck (s : State) (n : LaneId) : s.Evolves (s.afterCheck n) := by
  unfold State.afterCheck
  split
  · exact .refl s
  · exact s.evolves_frameStartSampled n

theorem State.evolves_syncCheckPoint (s : State) (n : LaneId) : s.Evolves (s.syncCheckPoint n) := by
  unfold State.syncCheckPoint
  dsimp only
  split
  · split
    · split
      · exact (s.evolves_setLane n _).trans (State.evolves_afterCheck _ n)
      · split
        · exact (s.evolves_setLane n _).trans (State.evolves_afterCheck _ n)
        · exact (s.evolves_setLane n _).trans (State.evolves_enterHunt _ n _)
    · split
      · exact (s.evolves_setLane n _).trans (State.evolves_completeStop _ n)
      · exact s.evolves_setLane n _
    · exact .refl s
    · exact .refl s
    · exact .refl s
  · exact .refl s

theorem State.evolves_watchExpiry (s : State) (n : LaneId) : s.Evolves (s.watchExpiry n) := by
  unfold State.watchExpiry
  dsimp only
  split
  · split
    · exact .refl s
    · exact s.evolves_setLane n _
    · exact s.evolves_setLane n _
    · exact (s.evolves_setLane n _).trans (State.evolves_enterHunt _ n _)
    · exact (s.evolves_setLane n _).trans (State.evolves_earlyStop _ n _)
  · exact .refl s

theorem State.moves_receiveHalf (s : State) (n : LaneId) (target : RxTarget) (c : Cell) :
    s.MovesData (s.receiveHalf n target c) := by
  cases target with
  | ignore => exact .refl s
  | ring r => exact s.moves_appendClaim r c (.lane n)

theorem State.evolves_slotEnd (s : State) (n : LaneId) : s.Evolves (s.slotEnd n) := by
  unfold State.slotEnd
  dsimp only
  split
  · exact (s.moves_receiveHalf n _ _).toEvolves.trans (State.evolves_setLane _ n _)
  · exact .refl s

theorem State.evolves_slotStartEvent (s : State) (n : LaneId) : s.Evolves (s.slotStartEvent n) := by
  unfold State.slotStartEvent
  dsimp only
  split
  · exact (s.evolves_setLane n _).trans (State.evolves_slotStart _ n _)
  · exact .refl s

theorem State.evolves_frameStartEvent (s : State) (n : LaneId) : s.Evolves (s.frameStartEvent n) := by
  unfold State.frameStartEvent
  split
  · exact s.evolves_frameStart n
  · exact .refl s

theorem State.evolves_endOfFrame (s : State) (n : LaneId) : s.Evolves (s.endOfFrame n) := by
  unfold State.endOfFrame
  split
  · exact s.evolves_completeStop n
  · exact .refl s

/-! ### Commands of the window -/

theorem State.moves_flush {s : State} {r : RingId} (ho : (s.ring r).state = .opened) : s.MovesData (s.flush r) := by
  have hflushed := State.moves_setRing_rezone s r (s.ring r).flushed
    (Ring.evolves_of_fits ho rfl rfl rfl Ring.Fits.flushed)
  unfold State.flush
  dsimp only
  split
  · exact hflushed.trans (State.moves_report _ r)
  · exact hflushed

/-- RING_OPEN checks its region against every OPEN ring (R5). -/
theorem State.keeps_openRing {s : State} {r : RingId} {base length width : Nat}
    (hrange : OpenInRange base length width) (hfree : s.regionTaken base length = false) :
    s.Keeps (s.setRing r (.afterOpen base length width)) where
  memory := State.memoryOk_of_eq rfl
  notices := .refl _
  rings h q := by
    rw [State.ring_setRing]
    split
    · exact (Ring.fits_afterOpen hrange).ok rfl
    · exact h q
  regions h q q' hne hq hq' := by
    have hapart : ∀ p, (s.ring p).state = .opened →
        (s.ring p).base + (s.ring p).length ≤ base ∨ base + length ≤ (s.ring p).base := by
      intro p hp
      by_contra hover
      have htaken : s.regionTaken base length = true := by
        simp only [State.regionTaken, List.any_eq_true, Vector.mem_toList_iff, s.exists_mem_rings_iff]
        refine ⟨p, ?_⟩
        simp only [Ring.overlaps, hp, BEq.rfl, Bool.true_and, Bool.and_eq_true, decide_eq_true_eq]
        omega
      rw [hfree] at htaken
      cases htaken
    by_cases h1 : q = r
    · have h2 : q' ≠ r := fun e => hne (h1.trans e.symm)
      subst h1
      rw [State.ring_setRing_self, State.ring_setRing_of_ne _ _ _ _ h2] at *
      exact (hapart q' hq').symm
    · by_cases h2 : q' = r
      · subst h2
        rw [State.ring_setRing_self, State.ring_setRing_of_ne _ _ _ _ h1] at *
        exact hapart q hq
      · rw [State.ring_setRing_of_ne _ _ _ _ h1, State.ring_setRing_of_ne _ _ _ _ h2] at *
        exact h q q' hne hq hq'

theorem State.moves_openRing {s : State} {r : RingId} {base length width : Nat}
    (hrange : OpenInRange base length width) (hfree : s.regionTaken base length = false) :
    s.MovesData (s.setRing r (.afterOpen base length width)) :=
  ⟨⟨State.keeps_openRing hrange hfree, rfl, rfl, rfl, rfl⟩, rfl, rfl⟩

theorem Ring.evolves_setSeat {g : Ring} (side : Side) (seat : Seat) (ho : g.state = .opened) :
    g.Evolves (g.setSeat side seat) := by
  cases side with
  | producer => exact Ring.evolves_bookkeeping ho rfl
  | consumer => exact Ring.evolves_bookkeeping ho rfl

/-- A freed seat is FREE as it is in the reset record too. -/
theorem Ring.evolves_freeSeat (g : Ring) (side : Side) : g.Evolves (g.setSeat side .free) := by
  by_cases ho : g.state = .opened
  · exact Ring.evolves_setSeat side .free ho
  · have hc := RingState.closed_of_ne_opened ho
    refine ⟨fun hok => Ring.ok_of_closed ?_, fun h => ?_⟩
    · rw [hok.1 hc]
      cases side <;> rfl
    · cases side with
      | producer => exact absurd h ho
      | consumer => exact absurd h ho

theorem State.moves_setRecord (s : State) (a : Agent) (x : AttachRecord) : s.MovesData (s.setRecord a x) := by
  cases a with
  | pr => exact s.moves_with_pr _
  | pw => exact s.moves_with_pw _
  | dma ch => exact s.moves_setChan ch _

theorem State.moves_clearAgent (s : State) (a : Agent) : s.MovesData (s.clearAgent a) := by
  cases a with
  | pr => exact s.moves_with_pr _
  | pw => exact s.moves_with_pw _
  | dma ch => exact s.moves_setChan ch _

theorem State.evolves_putParam (s : State) (n : LaneId) (param value : Nat) : s.Evolves (s.putParam n param value) := by
  unfold State.putParam
  dsimp only
  split
  · exact (s.evolves_setLane n _).trans (State.evolves_setSmap _ n _)
  · exact s.evolves_setLane n _

theorem Performs.evolves {code : Nat} {s t : State} {a : Answer} (h : Performs code s t a) : s.Evolves t := by
  cases h with
  | refused | refusedSwap | answered => exact .refl s
  | openRing r base length width hrange hclosed hfree => exact (State.moves_openRing hrange hfree).toEvolves
  | closeRing r ho hp hc => exact (State.moves_setRing s r _ (Ring.evolves_reset _)).toEvolves
  | flush r ho hidle => exact (State.moves_flush ho).toEvolves
  | marks r low high ho hlt hle =>
    refine (s.moves_setRing_rezone r _ ?_).toEvolves
    exact Ring.evolves_of_fits ho rfl rfl rfl fun h => h.marked hlt hle
  | policy r e f p ho => exact (State.moves_setRing s r _ (Ring.evolves_bookkeeping ho rfl)).toEvolves
  | fill r v ho =>
    refine (s.moves_setRing r _ ?_).toEvolves
    exact Ring.evolves_of_fits ho rfl rfl rfl fun h => h.filled v
  | clearStats r data0 data1 ho => exact (State.moves_setRing s r _ (Ring.evolves_bookkeeping ho rfl)).toEvolves
  | attach a r side hfits ho hidle hseat =>
    exact (State.moves_setRing s r _ (Ring.evolves_setSeat side _ ho)).toEvolves.trans (State.moves_setRecord _ a _).toEvolves
  | detach a att hatt hidle =>
    exact (State.moves_setRing s _ _ (Ring.evolves_freeSeat _ _)).toEvolves.trans (State.moves_clearAgent _ a).toEvolves
  | setParam n param value => exact s.evolves_putParam n param value
  | startMaster n =>
    exact ((s.evolves_setLane n _).trans (State.evolves_frameStart _ n)).trans (State.evolves_setLane _ n _)
  | startFollower n => exact s.evolves_setLane n _
  | stop n => exact s.evolves_setLane n _
  | leave n => exact s.evolves_enterOff n
  | edit n b => exact s.evolves_setSmap n _
  | swapInOff n hoff hidle hvalid => exact (State.moves_reserveSeats hvalid).toEvolves.trans (State.evolves_exchange _ n _)
  | swapLater n hon hidle hvalid => exact (State.moves_reserveSeats hvalid).toEvolves.trans (State.evolves_setSmap _ n _)
  | cancel n => exact s.evolves_dropSwap n
  | setDma ch => exact (s.moves_setChan ch _).toEvolves
  | go ch => exact (s.moves_setChan ch _).toEvolves.trans (State.moves_evaluate _ ch).toEvolves
  | halt ch => exact (s.moves_setChan ch _).toEvolves
  | mask lo => exact (s.moves_with_notices (s.notices.evolves_mask (maskOk_maskInForce lo))).toEvolves

/-! ## Every step -/

theorem State.keeps_resetWith (s : State) (low : Bool) : s.Keeps (s.resetWith low) :=
  .of_rings (State.memoryOk_of_eq rfl) s.notices.evolves_reset fun r => by
    have hring : (s.resetWith low).ring r = .reset := State.ring_reset r
    rw [hring]
    exact Ring.evolves_reset _

theorem State.keeps_endStartup (s : State) : s.Keeps s.endStartup :=
  .of_rings (fun _ => rfl) (s.notices.evolves_post _) fun _ => .refl _

theorem State.keeps_startupPeriod (s : State) : s.Keeps s.startupPeriod := by
  unfold State.startupPeriod
  split
  · exact .of_same rfl rfl rfl
  · split
    · exact .of_rings (Memory.wf_clearWord s.clearAddr) (.refl _) fun _ => .refl _
    · have hperiod : s.Keeps { s with period := s.period + 1 } := .of_same rfl rfl rfl
      exact hperiod.trans (State.keeps_endStartup _)

/-- The resets, the release of RESET_N and start-up: the steps that change what the window and the start-up unit do. -/
inductive State.StartsOver (s : State) : State → Prop where
  | softReset : s.resetLow = false → s.StartsOver s.softReset
  | pinReset : s.StartsOver (s.resetWith true)
  | commandMetPin (code : Word) : s.StartsOver ((s.resetWith true).onlyAnswered code (.plain .notReady))
  | release : s.resetLow = true → s.StartsOver { s with resetLow := false, clearAddr := 0, period := 0 }
  | startupEnd : s.starting = true → s.StartsOver s.endStartup
  | startupPeriod : s.starting = true → s.StartsOver s.startupPeriod

theorem State.StartsOver.keeps {s t : State} (h : s.StartsOver t) : s.Keeps t := by
  cases h with
  | softReset => exact s.keeps_resetWith false
  | pinReset => exact s.keeps_resetWith true
  | commandMetPin => exact (s.keeps_resetWith true).trans (.of_same rfl rfl rfl)
  | release => exact .of_same rfl rfl rfl
  | startupEnd => exact s.keeps_endStartup
  | startupPeriod => exact s.keeps_startupPeriod

theorem State.evolves_with_win (s : State) {w : Window} (h : w.ready = s.win.ready) : s.Evolves { s with win := w } :=
  ⟨.of_same rfl rfl rfl, rfl, h, rfl, rfl⟩

/-- Every other step is the work of the blocks. -/
theorem State.StepsTo.evolves {s t : State} (h : s.StepsTo t) : s.Evolves t ∨ s.StartsOver t := by
  cases h with
  | softReset hlow => exact .inr (.softReset hlow)
  | pinReset => exact .inr .pinReset
  | commandMetPin code => exact .inr (.commandMetPin code)
  | release hlow => exact .inr (.release hlow)
  | startupEnd hstarting => exact .inr (.startupEnd hstarting)
  | startupPeriod hstarting => exact .inr (.startupPeriod hstarting)
  | stays => exact .inl (.refl s)
  | undefinedRead => exact .inl ⟨.of_same rfl rfl rfl, rfl, rfl, rfl, rfl⟩
  | performed code t a haccepts hperforms =>
    have hcmd : s.Evolves (s.setCmd code) := s.evolves_with_win rfl
    exact .inl ((hcmd.trans hperforms.evolves).trans (State.evolves_with_win _ rfl))
  | notReady code => exact .inl (s.evolves_with_win rfl)
  | argument w hlow hready => exact .inl (s.evolves_with_win hready)
  | pop => exact .inl (s.moves_with_notices s.notices.evolves_pop).toEvolves
  | prFlags v => exact .inl (s.moves_with_pr _).toEvolves
  | pwFlags v => exact .inl (s.moves_with_pw _).toEvolves
  | chanFlags ch | gapEnd ch => exact .inl (s.moves_setChan ch _).toEvolves
  | prRead => exact .inl s.moves_prRead.toEvolves
  | pwStage v => exact .inl (s.moves_pwStage v).toEvolves
  | pwPush v => exact .inl (s.moves_pwPush v).toEvolves
  | lowRead ch w => exact .inl ((s.moves_addressedLow ch none).trans (State.moves_drives _ w)).toEvolves
  | lowWrite ch v => exact .inl (s.moves_addressedLow ch _).toEvolves
  | highWrite ch v => exact .inl (s.moves_addressedHighWrite ch v).toEvolves
  | strobe dak0 dak1 write => exact .inl (s.moves_ackStrobe dak0 dak1 write).toEvolves
  | syncArrival n => exact .inl (s.evolves_syncArrival n)
  | syncCheckPoint n => exact .inl (s.evolves_syncCheckPoint n)
  | frameStart n => exact .inl (s.evolves_frameStartEvent n)
  | slotStart n => exact .inl (s.evolves_slotStartEvent n)
  | slotEnd n => exact .inl (s.evolves_slotEnd n)
  | endOfFrame n => exact .inl (s.evolves_endOfFrame n)
  | watchExpiry n => exact .inl (s.evolves_watchExpiry n)
  | driveEdge n | samplingEdge n => exact .inl (s.evolves_setLane n _)

theorem State.StepsTo.keeps {s t : State} (h : s.StepsTo t) : s.Keeps t :=
  h.evolves.elim (fun hevolves => hevolves.toKeeps) fun hover => hover.keeps

theorem step_keeps {s t : State} (h : step s = .next t) : s.Keeps t := by
  obtain ⟨rest, hsteps⟩ := step_stepsTo h
  have htaken : s.Keeps { s with pending := rest } := .of_same rfl rfl rfl
  exact htaken.trans hsteps.keeps

/-- Settles O54: memory changes by writes of bytes and by the clearing alone, and each keeps the canonical form. -/
theorem stepKeepsMemoryCanonical : Obligations.StepKeepsMemoryCanonical :=
  fun _ _ hmem hstep => (step_keeps hstep).memory hmem

/-- Settles O55: the notice unit changes by posts, pops, NOTICE_MASK and resets alone. -/
theorem stepKeepsTheNoticeQueueBounded : Obligations.StepKeepsTheNoticeQueueBounded :=
  fun _ _ hok hmask hstep => ⟨(step_keeps hstep).notices.queue hok, (step_keeps hstep).notices.mask hmask⟩

/-- Settles O57: each ring's record evolves by the operations of the ring table, and only RING_OPEN, which checks its
region, opens one. -/
theorem stepKeepsRingsWellFormed : Obligations.StepKeepsRingsWellFormed :=
  fun _ _ hrings hregions hstep => ⟨(step_keeps hstep).rings hrings, (step_keeps hstep).regions hregions⟩

end Sys2Proof.Machine
end

section
/-! PROOFS. Start-up: the blocks at their reset values, and the clear address in step with the periods (R116, R129,
R160, R175 to R178). -/

namespace Sys2Proof.Machine

/-! ## The blocks at their reset values -/

/-- What `QuietInStartup` says of the blocks while the window is in STARTUP. -/
structure State.Blank (s : State) : Prop where
  rings : ∀ r, s.ring r = .reset
  lanes : ∀ n, s.lane n = .reset
  maps : ∀ n, s.smap n = .reset
  chans : ∀ ch, s.chan ch = .reset
  pr : s.pr = .reset
  pw : s.pw = .reset

theorem State.quietInStartup_iff (s : State) :
    s.QuietInStartup ↔ (s.resetLow = true → s.win.ready = false) ∧
      (s.win.ready = false → s.Blank ∧ s.notices = .reset) := by
  refine and_congr_right fun _ => imp_congr_right fun _ => ⟨?_, ?_⟩
  · rintro ⟨hrings, hlanes, hmaps, hchans, hpr, hpw, hnotices⟩
    exact ⟨⟨hrings, hlanes, hmaps, hchans, hpr, hpw⟩, hnotices⟩
  · rintro ⟨⟨hrings, hlanes, hmaps, hchans, hpr, hpw⟩, hnotices⟩
    exact ⟨hrings, hlanes, hmaps, hchans, hpr, hpw, hnotices⟩

theorem State.blank_resetWith (s : State) (low : Bool) : (s.resetWith low).Blank :=
  ⟨State.ring_reset, State.lane_reset, State.smap_reset, State.chan_reset, rfl, rfl⟩

/-- What differs from a blank state outside the blocks alone is blank. -/
theorem State.Blank.of_same {s t : State} (h : s.Blank) (hr : t.rings = s.rings) (hl : t.lanes = s.lanes)
    (hm : t.maps = s.maps) (hc : t.chans = s.chans) (hpr : t.pr = s.pr) (hpw : t.pw = s.pw) : t.Blank where
  rings r := (congrArg (·[r.val]) hr : t.ring r = s.ring r).trans (h.rings r)
  lanes n := (congrArg (·[n.val]) hl : t.lane n = s.lane n).trans (h.lanes n)
  maps n := (congrArg (·[n.val]) hm : t.smap n = s.smap n).trans (h.maps n)
  chans ch := (congrArg (·[ch.val]) hc : t.chan ch = s.chan ch).trans (h.chans ch)
  pr := hpr.trans h.pr
  pw := hpw.trans h.pw

/-! ## In STARTUP no block does anything (R116, R129, R177) -/

section
variable {s : State} (h : s.Blank) (hready : s.win.ready = false)

theorem State.setChanStray_of_startup (hready : s.win.ready = false) (ch : ChanId) : s.setChanStray ch = s := by
  simp [State.setChanStray, hready]

include h in
theorem State.Blank.attach_chan (ch : ChanId) : (s.chan ch).attach = none := by
  rw [h.chans ch]
  rfl

include h in
theorem State.Blank.form_chan (ch : ChanId) : (s.chan ch).form = .addressed := by
  rw [h.chans ch]
  rfl

include h hready

theorem State.Blank.prRead : s.prRead = s.drives 0 := by
  have hattach : s.pr.attach = none := by rw [h.pr]; rfl
  simp [State.prRead, hattach, State.setPrStray, hready]

theorem State.Blank.pwStage (v : Word) : s.pwStage v = s := by
  have hattach : s.pw.attach = none := by rw [h.pw]; rfl
  simp [State.pwStage, hattach, State.setPwStray, hready]

theorem State.Blank.pwPush (v : Word) : s.pwPush v = s := by
  have hattach : s.pw.attach = none := by rw [h.pw]; rfl
  simp [State.pwPush, hattach, State.setPwStray, hready]

theorem State.Blank.addressedLow (ch : ChanId) (write : Option Word) : s.addressedLow ch write = (s, 0) := by
  simp [State.addressedLow, h.form_chan, State.lowAccess, h.attach_chan, State.setChanStray_of_startup hready]

theorem State.Blank.addressedHighWrite (ch : ChanId) (v : Word) : s.addressedHighWrite ch v = s := by
  simp [State.addressedHighWrite, h.form_chan, h.attach_chan, State.setChanStray_of_startup hready]

end

theorem State.Blank.ackAccess {s : State} (h : s.Blank) (ch : ChanId) (write : Option Word) :
    s.ackAccess ch write = (s, 0) := by
  simp [State.ackAccess, h.form_chan]

/-- No channel takes a strobe: the data pins alone can change, and the count of free values. -/
theorem State.Blank.ackStrobe {s : State} (h : s.Blank) (dak0 dak1 : Bool) (write : Option Word) :
    ∃ k w, s.ackStrobe dak0 dak1 write = { s with freeCount := k, readData := w } := by
  unfold State.ackStrobe
  split
  · exact ⟨_, _, rfl⟩
  · rw [h.ackAccess]
    cases write <;> exact ⟨_, _, rfl⟩
  · rw [h.ackAccess]
    cases write <;> exact ⟨_, _, rfl⟩
  · have hcount : ({ s with freeCount := s.freeCount + 1 } : State).Blank := h.of_same rfl rfl rfl rfl rfl rfl
    unfold State.ackBoth
    dsimp only
    rw [hcount.ackAccess, hcount.ackAccess]
    cases write <;> exact ⟨_, _, rfl⟩

section
variable {s : State} (h : s.Blank) (n : LaneId)
include h

theorem State.Blank.state_lane : (s.lane n).state = .off := by
  rw [h.lanes n]
  rfl

theorem State.Blank.syncArrival : s.syncArrival n = s := by
  simp [State.syncArrival, h.lanes n, Lane.reset]

theorem State.Blank.syncCheckPoint : s.syncCheckPoint n = s := by
  simp [State.syncCheckPoint, Lane.checkTaken, h.lanes n, Lane.reset]

theorem State.Blank.frameStartEvent : s.frameStartEvent n = s := by
  simp [State.frameStartEvent, Lane.frameStartDue, h.state_lane n]

theorem State.Blank.slotStartEvent : s.slotStartEvent n = s := by
  simp [State.slotStartEvent, Lane.slotStartDue, Lane.framing, h.state_lane n]

theorem State.Blank.slotEnd : s.slotEnd n = s := by
  simp [State.slotEnd, Lane.framing, h.state_lane n]

theorem State.Blank.endOfFrame : s.endOfFrame n = s := by
  simp [State.endOfFrame, Lane.endOfFrameDue, h.state_lane n]

theorem State.Blank.watchExpiry : s.watchExpiry n = s := by
  simp [State.watchExpiry, h.lanes n, Lane.reset]

theorem State.Blank.driveEdge : s.setLane n (s.lane n).driveEdge = s := by
  simp [Lane.driveEdge, h.state_lane n]

theorem State.Blank.samplingEdge (rx sync : Bool) : s.setLane n ((s.lane n).samplingEdge rx sync) = s := by
  simp [Lane.samplingEdge, h.state_lane n]

end

/-- In STARTUP a step of the blocks changes the window registers, the data pins and the count of free values, and
nothing else. -/
theorem State.StepsTo.of_blank {s t : State} (hsteps : s.StepsTo t) (h : s.Blank) (hnotices : s.notices = .reset)
    (hready : s.win.ready = false) :
    s.StartsOver t ∨ ∃ win k w, win.ready = s.win.ready ∧
      t = { s with win := win, freeCount := k, readData := w } := by
  cases hsteps with
  | softReset hlow => exact .inl (.softReset hlow)
  | pinReset => exact .inl .pinReset
  | commandMetPin code => exact .inl (.commandMetPin code)
  | release hlow => exact .inl (.release hlow)
  | startupEnd hstarting => exact .inl (.startupEnd hstarting)
  | startupPeriod hstarting => exact .inl (.startupPeriod hstarting)
  | performed code t a haccepts => exact absurd (hready.symm.trans haccepts.2) (by decide)
  | stays | undefinedRead => exact .inr ⟨_, _, _, rfl, rfl⟩
  | notReady code => exact .inr ⟨s.win.answered code (.plain .notReady), _, _, rfl, rfl⟩
  | argument w hlow hw => exact .inr ⟨w, _, _, hw, rfl⟩
  | pop =>
    have hpop : s.notices.pop = s.notices := by rw [hnotices]; rfl
    exact .inr ⟨_, _, _, rfl, by rw [State.popNotice, hpop]⟩
  | prFlags v =>
    have hclear : s.pr.clearFlags v = s.pr := by rw [h.pr]; rfl
    exact .inr ⟨_, _, _, rfl, by rw [hclear]⟩
  | pwFlags v =>
    have hclear : s.pw.clearFlags v = s.pw := by rw [h.pw]; rfl
    exact .inr ⟨_, _, _, rfl, by rw [hclear]⟩
  | chanFlags ch v =>
    have hclear : (s.chan ch).clearStray v = s.chan ch := by rw [h.chans ch]; rfl
    exact .inr ⟨_, _, _, rfl, by rw [hclear, State.setChan_chan]⟩
  | gapEnd ch =>
    have hgap : ({ s.chan ch with gap := false } : Channel) = s.chan ch := by rw [h.chans ch]; rfl
    exact .inr ⟨_, _, _, rfl, by rw [hgap, State.setChan_chan]⟩
  | prRead => exact .inr ⟨_, _, _, rfl, h.prRead hready⟩
  | pwStage v => exact .inr ⟨_, _, _, rfl, h.pwStage hready v⟩
  | pwPush v => exact .inr ⟨_, _, _, rfl, h.pwPush hready v⟩
  | lowRead ch w => exact .inr ⟨_, _, _, rfl, by rw [h.addressedLow hready]; rfl⟩
  | lowWrite ch v => exact .inr ⟨_, _, _, rfl, by rw [h.addressedLow hready]⟩
  | highWrite ch v => exact .inr ⟨_, _, _, rfl, h.addressedHighWrite hready ch v⟩
  | strobe dak0 dak1 write =>
    obtain ⟨k, w, hstrobe⟩ := h.ackStrobe dak0 dak1 write
    exact .inr ⟨_, _, _, rfl, hstrobe⟩
  | syncArrival n => exact .inr ⟨_, _, _, rfl, h.syncArrival n⟩
  | syncCheckPoint n => exact .inr ⟨_, _, _, rfl, h.syncCheckPoint n⟩
  | frameStart n => exact .inr ⟨_, _, _, rfl, h.frameStartEvent n⟩
  | slotStart n => exact .inr ⟨_, _, _, rfl, h.slotStartEvent n⟩
  | slotEnd n => exact .inr ⟨_, _, _, rfl, h.slotEnd n⟩
  | endOfFrame n => exact .inr ⟨_, _, _, rfl, h.endOfFrame n⟩
  | watchExpiry n => exact .inr ⟨_, _, _, rfl, h.watchExpiry n⟩
  | driveEdge n => exact .inr ⟨_, _, _, rfl, h.driveEdge n⟩
  | samplingEdge n rx sync => exact .inr ⟨_, _, _, rfl, h.samplingEdge n rx sync⟩

/-! ## The clear address (R176, R178) -/

theorem State.quietInStartup_of_ready {s : State} (hlow : s.resetLow = false) (hready : s.win.ready = true) :
    s.QuietInStartup :=
  ⟨fun h => absurd (hlow.symm.trans h) (by decide), fun h => absurd (hready.symm.trans h) (by decide)⟩

theorem State.quietInStartup_of_blank {s : State} (hready : s.win.ready = false) (h : s.Blank)
    (hnotices : s.notices = .reset) : s.QuietInStartup :=
  s.quietInStartup_iff.mpr ⟨fun _ => hready, fun _ => ⟨h, hnotices⟩⟩

theorem State.clearingOk_of_ready {s : State} (hready : s.win.ready = true) (h : s.clearAddr ≤ Config.memWords) :
    s.ClearingOk :=
  ⟨h, fun hnot => absurd (hready.symm.trans hnot) (by decide)⟩

theorem State.clearingOk_of_startup {s : State} (hfollows : s.clearAddr = s.period - Config.firstClearPeriod)
    (h : s.clearAddr < Config.memWords) : s.ClearingOk :=
  ⟨Nat.le_of_lt h, fun _ => ⟨hfollows, h⟩⟩

theorem Config.memWords_pos : 0 < Config.memWords := by decide

/-- The quiet of start-up and the clear address together, which is what every step keeps. -/
def State.StartupOk (s : State) : Prop := s.QuietInStartup ∧ s.ClearingOk

theorem State.startupOk_resetWith (s : State) (low : Bool) : (s.resetWith low).StartupOk :=
  ⟨State.quietInStartup_of_blank rfl (s.blank_resetWith low) rfl, State.clearingOk_of_startup rfl Config.memWords_pos⟩

theorem State.startupOk_endStartup {s : State} (h : s.starting = true) : s.endStartup.StartupOk := by
  have hlow : s.resetLow = false := by simp [State.starting] at h; exact h.1
  exact ⟨State.quietInStartup_of_ready hlow rfl, State.clearingOk_of_ready rfl (Nat.le_refl _)⟩

/-- One period of start-up: nothing before period 8, then one word, and with the last word the end. -/
theorem State.startupOk_startupPeriod {s : State} (hstarting : s.starting = true) (h : s.StartupOk) :
    s.startupPeriod.StartupOk := by
  have hready : s.win.ready = false := by simp [State.starting] at hstarting; exact hstarting.2
  obtain ⟨hquiet, hle, hclear⟩ := h
  obtain ⟨hfollows, hlt⟩ := hclear hready
  obtain ⟨hblank, hnotices⟩ := (s.quietInStartup_iff.mp hquiet).2 hready
  unfold State.startupPeriod
  split
  · rename_i hbefore
    refine ⟨State.quietInStartup_of_blank hready (hblank.of_same rfl rfl rfl rfl rfl rfl) hnotices,
      State.clearingOk_of_startup ?_ hlt⟩
    show s.clearAddr = s.period + 1 - Config.firstClearPeriod
    omega
  · rename_i hfrom
    split
    · rename_i hmore
      refine ⟨State.quietInStartup_of_blank hready (hblank.of_same rfl rfl rfl rfl rfl rfl) hnotices,
        State.clearingOk_of_startup ?_ hmore⟩
      show s.clearAddr + 1 = s.period + 1 - Config.firstClearPeriod
      omega
    · exact State.startupOk_endStartup hstarting

theorem State.StartsOver.startupOk {s t : State} (hover : s.StartsOver t) (h : s.StartupOk) : t.StartupOk := by
  cases hover with
  | softReset => exact s.startupOk_resetWith false
  | pinReset => exact s.startupOk_resetWith true
  | commandMetPin code =>
    exact ⟨State.quietInStartup_of_blank rfl ((s.blank_resetWith true).of_same rfl rfl rfl rfl rfl rfl) rfl,
      State.clearingOk_of_startup rfl Config.memWords_pos⟩
  | release hlow =>
    have hready := h.1.1 hlow
    obtain ⟨hblank, hnotices⟩ := (s.quietInStartup_iff.mp h.1).2 hready
    exact ⟨State.quietInStartup_of_blank hready (hblank.of_same rfl rfl rfl rfl rfl rfl) hnotices,
      State.clearingOk_of_startup rfl Config.memWords_pos⟩
  | startupEnd hstarting => exact State.startupOk_endStartup hstarting
  | startupPeriod hstarting => exact State.startupOk_startupPeriod hstarting h

theorem State.StepsTo.startupOk {s t : State} (hsteps : s.StepsTo t) (h : s.StartupOk) : t.StartupOk := by
  cases hready : s.win.ready with
  | true =>
    have hlow : s.resetLow = false := by
      by_contra hnot
      exact absurd ((h.1.1 (Bool.eq_true_of_not_eq_false hnot)).symm.trans hready) (by decide)
    rcases hsteps.evolves with hevolves | hover
    · have hready' := hevolves.ready.trans hready
      exact ⟨State.quietInStartup_of_ready (hevolves.resetLow.trans hlow) hready',
        State.clearingOk_of_ready hready' (hevolves.clearAddr.trans_le h.2.1)⟩
    · exact hover.startupOk h
  | false =>
    obtain ⟨hblank, hnotices⟩ := (s.quietInStartup_iff.mp h.1).2 hready
    rcases hsteps.of_blank hblank hnotices hready with hover | ⟨win, k, w, hwin, rfl⟩
    · exact hover.startupOk h
    · obtain ⟨hfollows, hlt⟩ := h.2.2 hready
      exact ⟨State.quietInStartup_of_blank (hwin.trans hready) (hblank.of_same rfl rfl rfl rfl rfl rfl) hnotices,
        State.clearingOk_of_startup hfollows hlt⟩

/-- Settles O56: in READY the blocks keep the window READY; in STARTUP they do nothing, and the start-up unit goes
through its periods. -/
theorem stepKeepsStartupQuiet : Obligations.StepKeepsStartupQuiet := by
  intro s t hquiet hclearing hstep
  obtain ⟨rest, hsteps⟩ := step_stepsTo hstep
  exact hsteps.startupOk ⟨hquiet, hclearing⟩

end Sys2Proof.Machine
end

section
/-! PROOFS. The lane records along every step: parameters, counts and pins, and the place in the frame that the slot
registers stand for (R44 to R68, R94, R97 to R102, R111 to R113). -/

namespace Sys2Proof.Machine

/-! ## The clauses of a lane's record, by its state -/

/-- The clauses of `Lane.Ok` that every state shares. -/
structure Lane.Basics (l : Lane) : Prop where
  cfg : l.cfg.Ok
  good : l.goodSyncs ≤ l.cfg.relock
  missed : l.missedRun ≤ l.cfg.flywheel
  pins : l.cfg.role = .follower → l.bclkPin = .hiZ ∧ l.fsyncPin = .hiZ

/-- The clauses for a lane with a frame in flight, RUNNING or STOPPING. -/
structure Lane.Framed (l : Lane) : Prop extends l.Basics where
  framing : l.framing = true
  inStep : l.InStep
  check : l.checkDue = true → l.half = .sampled
  between : l.between = true →
    l.position = 0 ∧ l.cfg.startsAtDrive = false ∧ (l.half = .driven ∨ l.checkDue = true)
  lock : l.lockNotice ≠ none → l.half = .sampled ∧ l.cfg.syncEarly = true ∧ l.position + 1 = l.cfg.frameLen

/-- The clauses for a lane with no frame in flight, in OFF, ARMING or HUNT. -/
structure Lane.Idle (l : Lane) : Prop extends l.Basics where
  framing : l.framing = false
  off : l.state = .off → l.bclkPin = .hiZ ∧ l.fsyncPin = .hiZ ∧ l.goodSyncs = 0 ∧ l.missedRun = 0
  hunting : l.state ≠ .off → l.cfg.role = .follower ∧ l.goodSyncs < l.cfg.relock
  silent : l.Silent
  check : l.checkDue = false
  between : l.between = false
  lock : l.lockNotice = none

theorem Lane.framing_iff (l : Lane) : l.framing = true ↔ l.state = .running ∨ l.state = .stopping := by
  simp [Lane.framing]

theorem Lane.not_framing_iff (l : Lane) :
    l.framing = false ↔ l.state = .off ∨ l.state = .arming ∨ l.state = .hunt := by
  cases h : l.state <;> simp [Lane.framing, h]

theorem Lane.Ok.basics {l : Lane} (h : l.Ok) : l.Basics := by
  obtain ⟨hcfg, hgood, hmissed, -, hpins, -⟩ := h
  exact ⟨hcfg, hgood, hmissed, hpins⟩

theorem Lane.Ok.framed {l : Lane} (h : l.Ok) (hf : l.framing = true) : l.Framed := by
  have hbasics := h.basics
  obtain ⟨-, -, -, -, -, -, -, -, hstep, hcheck, hbetween, hlock⟩ := h
  exact ⟨hbasics, hf, hstep hf, fun hc => (hcheck hc).2, fun hb => (hbetween hb).2, fun hl => (hlock hl).2⟩

theorem Lane.Ok.idle {l : Lane} (h : l.Ok) (hf : l.framing = false) : l.Idle := by
  have hbasics := h.basics
  have hnot : ¬l.framing = true := by simp [hf]
  obtain ⟨-, -, -, hmaster, -, hoff, hhunting, hsilent, -, hcheck, hbetween, hlock⟩ := h
  refine ⟨hbasics, hf, hoff, fun hon => ⟨?role, ?good⟩, hsilent hf, ?check, ?between, ?lock⟩
  case role =>
    cases hrole : l.cfg.role with
    | follower => rfl
    | master =>
      obtain ⟨harming, hhunt⟩ := hmaster hrole
      exact absurd ((l.not_framing_iff.mp hf).resolve_left hon) (by simp [harming, hhunt])
  case good => exact hhunting ((l.not_framing_iff.mp hf).resolve_left hon)
  case check => exact Bool.eq_false_of_not_eq_true fun hc => hnot (hcheck hc).1
  case between => exact Bool.eq_false_of_not_eq_true fun hb => hnot (hbetween hb).1
  case lock => exact not_not.mp fun hl => hnot (hlock hl).1

theorem Lane.Framed.ok {l : Lane} (h : l.Framed) : l.Ok := by
  have hstate := l.framing_iff.mp h.framing
  refine ⟨h.cfg, h.good, h.missed, fun _ => ?_, h.pins, fun hoff => ?_, fun hhunting => ?_, fun hf => ?_,
    fun _ => h.inStep, fun hc => ⟨h.framing, h.check hc⟩, fun hb => ⟨h.framing, h.between hb⟩,
    fun hl => ⟨h.framing, h.lock hl⟩⟩
  · rcases hstate with hs | hs <;> simp [hs]
  · simp [hoff] at hstate
  · rcases hhunting with hs | hs <;> simp [hs] at hstate
  · exact absurd (h.framing.symm.trans hf) (by decide)

theorem Lane.Idle.ok {l : Lane} (h : l.Idle) : l.Ok := by
  have hnot : ¬l.framing = true := by simp [h.framing]
  refine ⟨h.cfg, h.good, h.missed, fun hmaster => ?_, h.pins, h.off, fun hhunting => ?_, fun _ => h.silent,
    fun hf => absurd hf hnot, fun hc => ?_, fun hb => ?_, fun hl => absurd h.lock hl⟩
  · by_cases hoff : l.state = .off
    · simp [hoff]
    · exact absurd ((h.hunting hoff).1.symm.trans hmaster) (by decide)
  · refine (h.hunting ?_).2
    rcases hhunting with hs | hs <;> simp [hs]
  · exact absurd (h.check.symm.trans hc) (by decide)
  · exact absurd (h.between.symm.trans hb) (by decide)

/-! ## Frame layout (R47) -/

theorem LaneConfig.Ok.width {c : LaneConfig} (h : c.Ok) : c.width = 8 ∨ c.width = 16 ∨ c.width = 32 := h.2.2.1

theorem LaneConfig.Ok.width_pos {c : LaneConfig} (h : c.Ok) : 0 < c.width := by
  rcases h.width with hw | hw | hw <;> omega

theorem LaneConfig.Ok.slotsLen_pos {c : LaneConfig} (h : c.Ok) : 0 < c.slotsLen :=
  Nat.mul_pos h.1 h.width_pos

theorem LaneConfig.slotsLen_le_frameLen (c : LaneConfig) : c.slotsLen ≤ c.frameLen := Nat.le_add_right _ _

theorem LaneConfig.Ok.frameLen_pos {c : LaneConfig} (h : c.Ok) : 0 < c.frameLen :=
  Nat.lt_of_lt_of_le h.slotsLen_pos c.slotsLen_le_frameLen

theorem LaneConfig.Ok.relock_pos {c : LaneConfig} (h : c.Ok) : 1 ≤ c.relock := by
  obtain ⟨-, -, -, -, -, -, hrelock, -⟩ := h
  exact hrelock

/-- Inside a slot the next position is in the same slot (R47). -/
theorem LaneConfig.next_in_slot {c : LaneConfig} {p : Nat} (hp : p < c.slotsLen) (h : p % c.width + 1 < c.width) :
    p + 1 < c.slotsLen ∧ (p + 1) % c.width = p % c.width + 1 := by
  have hmod : (p + 1) % c.width = p % c.width + 1 := by
    rw [Nat.add_mod, Nat.mod_eq_of_lt (a := 1) (by omega)]
    exact Nat.mod_eq_of_lt h
  refine ⟨?_, hmod⟩
  have hne : p + 1 ≠ c.slotsLen := by
    intro hlast
    rw [hlast, LaneConfig.slotsLen, Nat.mul_mod_left] at hmod
    omega
  omega

/-- A slot's last position is followed by a multiple of W (R47). -/
theorem LaneConfig.next_mod_of_last {c : LaneConfig} {p : Nat} (h : p % c.width + 1 = c.width) :
    (p + 1) % c.width = 0 := by
  rw [Nat.add_mod]
  by_cases hone : c.width = 1
  · simp [hone, Nat.mod_one]
  · rw [Nat.mod_eq_of_lt (a := 1) (by omega), h, Nat.mod_self]

/-! ## Slot registers in step -/

theorem Lane.inSlot_iff (l : Lane) : l.inSlot = true ↔ l.between = false ∧ l.position < l.cfg.slotsLen := by
  simp [Lane.inSlot]

/-- What `InStep` asks at the opening of a position: of a slot, with nothing driven and nothing sampled. -/
theorem Lane.inStep_opening_iff {l : Lane} (h : l.half = .opening) :
    l.InStep ↔ l.position < l.cfg.frameLen ∧ l.between = false ∧ l.position < l.cfg.slotsLen ∧
      l.position % l.cfg.width = 0 ∧ l.txBits = 0 ∧ l.rxBits = 0 := by
  simp only [Lane.InStep, h]

theorem Lane.inStep_driven_iff {l : Lane} (h : l.half = .driven) :
    l.InStep ↔ l.position < l.cfg.frameLen ∧
      if l.inSlot then l.rxBits = l.position % l.cfg.width ∧ l.TxDriven (l.position % l.cfg.width + 1)
      else l.Unloaded ∧ l.PinReleased := by
  simp only [Lane.InStep, h]

theorem Lane.inStep_sampled_iff {l : Lane} (h : l.half = .sampled) :
    l.InStep ↔ l.position < l.cfg.frameLen ∧
      if l.inSlot && l.lockNotice.isNone then
        (l.rxBits = l.position % l.cfg.width + 1 ∧ l.TxDriven (l.position % l.cfg.width + 1)) ∨
          ((l.position + 1) % l.cfg.width = 0 ∧ l.Unloaded)
      else l.Unloaded ∧ l.PinReleased := by
  simp only [Lane.InStep, h]

theorem Lane.inStep_driven_slot {l : Lane} (h : l.half = .driven) (hlen : l.position < l.cfg.frameLen)
    (hslot : l.inSlot = true) (hrx : l.rxBits = l.position % l.cfg.width)
    (htx : l.TxDriven (l.position % l.cfg.width + 1)) : l.InStep :=
  (Lane.inStep_driven_iff h).mpr ⟨hlen, by rw [if_pos hslot]; exact ⟨hrx, htx⟩⟩

theorem Lane.inStep_driven_gap {l : Lane} (h : l.half = .driven) (hlen : l.position < l.cfg.frameLen)
    (hslot : l.inSlot = false) (hun : l.Unloaded) (hpin : l.PinReleased) : l.InStep :=
  (Lane.inStep_driven_iff h).mpr ⟨hlen, by simp only [hslot]; exact ⟨hun, hpin⟩⟩

/-- Inside a frame whose lock notice is not owed, after a sampling edge: the bits of the slot up to this position are
driven and sampled, or the slot has ended here. -/
theorem Lane.Framed.sampled_slot {l : Lane} (h : l.Framed) (hhalf : l.half = .sampled) (hslot : l.inSlot = true)
    (hlock : l.lockNotice = none) :
    (l.rxBits = l.position % l.cfg.width + 1 ∧ l.TxDriven (l.position % l.cfg.width + 1)) ∨
      ((l.position + 1) % l.cfg.width = 0 ∧ l.Unloaded) := by
  have hstep := ((Lane.inStep_sampled_iff hhalf).mp h.inStep).2
  rwa [if_pos (by simp [hslot, hlock])] at hstep

theorem Lane.Framed.sampled_gap {l : Lane} (h : l.Framed) (hhalf : l.half = .sampled)
    (hslot : (l.inSlot && l.lockNotice.isNone) = false) : l.Unloaded ∧ l.PinReleased := by
  have hstep := ((Lane.inStep_sampled_iff hhalf).mp h.inStep).2
  rwa [if_neg (by simp [hslot])] at hstep

theorem Lane.Framed.position_lt {l : Lane} (h : l.Framed) : l.position < l.cfg.frameLen := h.inStep.1

/-! ## Bits on the wire -/

theorem Lane.driveBit_frame (l : Lane) : l.driveBit = { l with txPin := l.driveBit.txPin, txBits := l.driveBit.txBits } := by
  unfold Lane.driveBit
  split
  · rfl
  · split
    · split <;> rfl
    · rfl

/-- In a slot one more bit of the cell is driven. -/
theorem Lane.txDriven_driveBit {l : Lane} {k : Nat} (hslot : l.inSlot = true) (h : l.TxDriven k) :
    l.driveBit.TxDriven (k + 1) := by
  have hbetween : ¬l.between = true := by simp [(l.inSlot_iff.mp hslot).1]
  unfold Lane.driveBit
  rw [if_neg hbetween, if_pos hslot]
  split
  · rename_i hquiet
    simp only [Lane.TxDriven, hquiet] at h ⊢
    exact h
  · rename_i c hcell
    simp only [Lane.TxDriven, hcell] at h ⊢
    omega

/-- In the gap the transmit pin is released, and the slot registers stay. -/
theorem Lane.driveBit_gap {l : Lane} (hbetween : l.between = false) (hslot : l.inSlot = false) :
    l.driveBit = { l with txPin := .hiZ } := by
  simp [Lane.driveBit, hbetween, hslot]

theorem Lane.driveBit_between {l : Lane} (hbetween : l.between = true) : l.driveBit = l := by
  simp [Lane.driveBit, hbetween]

/-- What a drive edge leaves as it is. -/
theorem Lane.drive_frame (l : Lane) :
    l.drive = { l with txPin := l.driveBit.txPin, txBits := l.driveBit.txBits, half := .driven,
                       bclkPin := l.drive.bclkPin, fsyncPin := l.drive.fsyncPin, syncLeft := l.drive.syncLeft,
                       watchRunning := l.drive.watchRunning } := by
  unfold Lane.drive
  rw [Lane.driveBit_frame]
  dsimp only
  split <;> rfl

theorem Lane.pins_drive {l : Lane} (h : l.cfg.role = .follower → l.bclkPin = .hiZ ∧ l.fsyncPin = .hiZ) :
    l.cfg.role = .follower → l.drive.bclkPin = .hiZ ∧ l.drive.fsyncPin = .hiZ := by
  intro hrole
  have hpins := h hrole
  unfold Lane.drive
  rw [Lane.driveBit_frame]
  simp only [hrole]
  exact hpins

theorem Lane.Basics.drive {l : Lane} (h : l.Basics) : l.drive.Basics := by
  have hpins := Lane.pins_drive h.pins
  rw [Lane.drive_frame]
  exact ⟨h.cfg, h.good, h.missed, hpins⟩

/-- A drive edge in a slot, `k` bits of which have been driven before. -/
theorem Lane.framed_drive_slot {l : Lane} (h : l.Basics) (hf : l.framing = true) (hslot : l.inSlot = true)
    (hrx : l.rxBits = l.position % l.cfg.width) (htx : l.TxDriven (l.position % l.cfg.width))
    (hcheck : l.checkDue = false) (hlock : l.lockNotice = none) : l.drive.Framed := by
  have hbasics := h.drive
  have htx' := Lane.txDriven_driveBit hslot htx
  obtain ⟨hbetween, hpos⟩ := l.inSlot_iff.mp hslot
  rw [Lane.driveBit_frame] at htx'
  rw [Lane.drive_frame] at hbasics ⊢
  refine ⟨hbasics, hf, ?_, fun hc => absurd (hcheck.symm.trans hc) (by decide),
    fun hb => absurd (hbetween.symm.trans hb) (by decide), fun hl => absurd hlock hl⟩
  exact Lane.inStep_driven_slot rfl (Nat.lt_of_lt_of_le hpos l.cfg.slotsLen_le_frameLen) hslot hrx htx'

/-- A drive edge in the gap. -/
theorem Lane.framed_drive_gap {l : Lane} (h : l.Basics) (hf : l.framing = true) (hbetween : l.between = false)
    (hslot : l.inSlot = false) (hlen : l.position < l.cfg.frameLen) (hun : l.Unloaded)
    (hcheck : l.checkDue = false) (hlock : l.lockNotice = none) : l.drive.Framed := by
  have hbasics := h.drive
  rw [Lane.drive_frame, Lane.driveBit_gap hbetween hslot] at hbasics ⊢
  refine ⟨hbasics, hf, ?_, fun hc => absurd (hcheck.symm.trans hc) (by decide),
    fun hb => absurd (hbetween.symm.trans hb) (by decide), fun hl => absurd hlock hl⟩
  exact Lane.inStep_driven_gap rfl hlen hslot hun (.inl rfl)

/-- The drive edge that leaves a follower with SYNC_EARLY off between frames, the transmit pin held (R51, R97). -/
theorem Lane.framed_drive_between {l : Lane} (h : l.Basics) (hf : l.framing = true) (hbetween : l.between = true)
    (hpos : l.position = 0) (hstarts : l.cfg.startsAtDrive = false) (hun : l.Unloaded) (hpin : l.PinReleased)
    (hcheck : l.checkDue = false) (hlock : l.lockNotice = none) : l.drive.Framed := by
  have hbasics := h.drive
  have hslot : l.inSlot = false := by simp [Lane.inSlot, hbetween]
  have hlen : l.position < l.cfg.frameLen := by rw [hpos]; exact h.cfg.frameLen_pos
  rw [Lane.drive_frame, Lane.driveBit_between hbetween] at hbasics ⊢
  refine ⟨hbasics, hf, ?_, fun hc => absurd (hcheck.symm.trans hc) (by decide),
    fun _ => ⟨hpos, hstarts, .inl rfl⟩, fun hl => absurd hlock hl⟩
  exact Lane.inStep_driven_gap rfl hlen hslot hun hpin

/-! ### The drive edge (R48, R111) -/

theorem Lane.not_owes_iff (l : Lane) :
    l.owes = false ↔ l.arrivalDue = false ∧ l.checkDue = false ∧ l.rxBits ≠ l.cfg.width := by
  simp [Lane.owes, Lane.slotEndDue, and_assoc]

/-- Where nothing of the latest sampling edge is owed, no lane is between frames. -/
theorem Lane.Framed.not_between {l : Lane} (h : l.Framed) (hhalf : l.half = .sampled) (hcheck : l.checkDue = false) :
    l.between = false := by
  by_contra hb
  rcases (h.between (Bool.eq_true_of_not_eq_false hb)).2.2 with hd | hc
  · exact absurd (hhalf.symm.trans hd) (by decide)
  · exact absurd (hcheck.symm.trans hc) (by decide)

/-- At the end of a slot whose slot end has been taken, or in the gap, the slot registers are empty. -/
theorem Lane.Framed.unloaded_of_boundary {l : Lane} (h : l.Framed) (hhalf : l.half = .sampled)
    (hdue : l.rxBits ≠ l.cfg.width) (hnext : l.cfg.slotsLen ≤ l.position + 1) : l.Unloaded := by
  cases hslot : l.inSlot && l.lockNotice.isNone with
  | false => exact (h.sampled_gap hhalf hslot).1
  | true =>
    rw [Bool.and_eq_true, Option.isNone_iff_eq_none] at hslot
    obtain ⟨hslot, hlock⟩ := hslot
    rcases h.sampled_slot hhalf hslot hlock with ⟨hrx, -⟩ | ⟨-, hun⟩
    · have hpos := (l.inSlot_iff.mp hslot).2
      have hmod : l.position % l.cfg.width < l.cfg.width := Nat.mod_lt _ h.cfg.width_pos
      have hin := LaneConfig.next_in_slot hpos (show l.position % l.cfg.width + 1 < l.cfg.width by omega)
      omega
    · exact hun

/-- The next drive edge advances Position within the frame. -/
theorem Lane.Framed.drive_next {l : Lane} (h : l.Framed) (hhalf : l.half = .sampled) (howes : l.owes = false)
    (hstart : l.slotStartDue = false) (hmore : l.position + 1 < l.cfg.frameLen) :
    ({ l with position := l.position + 1 } : Lane).drive.Framed := by
  obtain ⟨harrival, hcheck, hdue⟩ := l.not_owes_iff.mp howes
  have hbetween := h.not_between hhalf hcheck
  have hbasics : ({ l with position := l.position + 1 } : Lane).Basics := ⟨h.cfg, h.good, h.missed, h.pins⟩
  have hlock : l.lockNotice = none := by
    by_contra hl
    have hlast := (h.lock hl).2.2
    omega
  by_cases hnext : l.cfg.slotsLen ≤ l.position + 1
  · have hslot : ({ l with position := l.position + 1 } : Lane).inSlot = false := by
      simp only [Lane.inSlot, hbetween]
      simpa using hnext
    exact Lane.framed_drive_gap hbasics h.framing hbetween hslot hmore
      (h.unloaded_of_boundary hhalf hdue hnext) hcheck hlock
  · have hpos : l.position < l.cfg.slotsLen := by omega
    have hslot : l.inSlot = true := l.inSlot_iff.mpr ⟨hbetween, hpos⟩
    have hopens : (l.position + 1) % l.cfg.width ≠ 0 := by
      intro hzero
      have hopened : l.slotStartDue = true := by
        simp [Lane.slotStartDue, h.framing, hhalf, hbetween, howes, hzero]
        omega
      exact absurd (hstart.symm.trans hopened) (by decide)
    rcases h.sampled_slot hhalf hslot hlock with ⟨hrx, htx⟩ | ⟨hzero, -⟩
    · have hmod : l.position % l.cfg.width < l.cfg.width := Nat.mod_lt _ h.cfg.width_pos
      obtain ⟨hin, hmod'⟩ := LaneConfig.next_in_slot hpos (show l.position % l.cfg.width + 1 < l.cfg.width by omega)
      refine Lane.framed_drive_slot hbasics h.framing ?_ ?_ ?_ hcheck hlock
      · exact (Lane.inSlot_iff _).mpr ⟨hbetween, hin⟩
      · exact hrx.trans hmod'.symm
      · show l.TxDriven ((l.position + 1) % l.cfg.width)
        rw [hmod']
        exact htx
    · exact absurd hzero hopens

/-- The drive edge that closes a frame whose next frame start is taken at a sampling edge. -/
theorem Lane.Framed.drive_close {l : Lane} (h : l.Framed) (hhalf : l.half = .sampled) (howes : l.owes = false)
    (hframe : l.frameStartDue = false) (hend : l.endOfFrameDue = false) (hmore : ¬l.position + 1 < l.cfg.frameLen) :
    ({ l with position := 0, between := true } : Lane).drive.Framed := by
  obtain ⟨harrival, hcheck, hdue⟩ := l.not_owes_iff.mp howes
  have hbetween := h.not_between hhalf hcheck
  have hlast : l.position + 1 = l.cfg.frameLen := by
    have hlt := h.position_lt
    omega
  have hatEnd : l.atFrameEnd = true := by simp [Lane.atFrameEnd, hhalf, hbetween, hlast, howes]
  have hrunning : l.state = .running := by
    rcases l.framing_iff.mp h.framing with hs | hs
    · exact hs
    · simp [Lane.endOfFrameDue, hs, hatEnd] at hend
  have hstarts : l.cfg.startsAtDrive = false := by
    simpa [Lane.frameStartDue, hrunning, hatEnd] using hframe
  have hlock : l.lockNotice = none := by
    by_contra hl
    have hearly := (h.lock hl).2.1
    simp [LaneConfig.startsAtDrive, hearly] at hstarts
  have hnext : l.cfg.slotsLen ≤ l.position + 1 := by rw [hlast]; exact l.cfg.slotsLen_le_frameLen
  have hun := h.unloaded_of_boundary hhalf hdue hnext
  refine Lane.framed_drive_between ⟨h.cfg, h.good, h.missed, h.pins⟩ h.framing rfl rfl hstarts hun ?_ hcheck hlock
  by_cases hgap : l.cfg.gap = 0
  · exact .inr ⟨rfl, hgap⟩
  · have hslot : l.inSlot = false := by
      have hframeLen : l.cfg.frameLen = l.cfg.slotsLen + l.cfg.gap := rfl
      simp only [Lane.inSlot, hbetween]
      simp
      omega
    rcases (h.sampled_gap hhalf (by simp [hslot])).2 with hpin | ⟨hb, -⟩
    · exact .inl hpin
    · exact absurd (hbetween.symm.trans hb) (by decide)

theorem Lane.Framed.driveRunning {l : Lane} (h : l.Framed) : l.driveRunning.Framed := by
  unfold Lane.driveRunning
  split
  · rename_i hhalf
    obtain ⟨-, hbetween, hpos, hmod, htx, hrx⟩ := (Lane.inStep_opening_iff hhalf).mp h.inStep
    have hcheck : l.checkDue = false := by
      by_contra hc
      exact absurd (hhalf.symm.trans (h.check (Bool.eq_true_of_not_eq_false hc))) (by decide)
    have hlock : l.lockNotice = none := by
      by_contra hl
      exact absurd (hhalf.symm.trans (h.lock hl).1) (by decide)
    refine Lane.framed_drive_slot h.toBasics h.framing (l.inSlot_iff.mpr ⟨hbetween, hpos⟩) (hrx.trans hmod.symm) ?_
      hcheck hlock
    rw [hmod]
    unfold Lane.TxDriven
    split <;> exact htx
  · exact h
  · rename_i hhalf
    split
    · exact h
    · rename_i hnothing
      simp only [Bool.or_eq_true, not_or, Bool.not_eq_true] at hnothing
      obtain ⟨⟨⟨howes, hstart⟩, hframe⟩, hend⟩ := hnothing
      split
      · rename_i hmore
        exact h.drive_next hhalf howes hstart hmore
      · rename_i hmore
        exact h.drive_close hhalf howes hframe hend hmore

theorem Lane.Idle.watched {l : Lane} (h : l.Idle) : ({ l with watchRunning := true } : Lane).Idle := { h with }

theorem Lane.Ok.driveEdge {l : Lane} (h : l.Ok) : l.driveEdge.Ok := by
  unfold Lane.driveEdge
  split
  · exact h
  · rename_i hstate
    split
    · exact h
    · exact (h.idle (l.not_framing_iff.mpr (.inr (.inl hstate)))).watched.ok
  · rename_i hstate
    split
    · exact h
    · exact (h.idle (l.not_framing_iff.mpr (.inr (.inr hstate)))).watched.ok
  · rename_i hstate
    exact (h.framed (l.framing_iff.mpr (.inl hstate))).driveRunning.ok
  · rename_i hstate
    exact (h.framed (l.framing_iff.mpr (.inr hstate))).driveRunning.ok

/-! ### The sampling edge (R57, R61, R101) -/

theorem Lane.Idle.sampleHunting {l : Lane} (h : l.Idle) (rx sync : Bool) : (l.sampleHunting rx sync).Idle := by
  unfold Lane.sampleHunting
  split
  · exact h
  · exact { h with }

/-- The receive pin at a sampling edge: what it changes, and where the slot registers then stand. -/
theorem Lane.Framed.sampleRx {l : Lane} (h : l.Framed) (hhalf : l.half = .driven) (rx : Bool) :
    ∃ cell bits, l.sampleRx rx = { l with rxSample := rx, half := .sampled, rxCell := cell, rxBits := bits } ∧
      (l.sampleRx rx).InStep := by
  have hlock : l.lockNotice = none := by
    by_contra hl
    exact absurd (hhalf.symm.trans (h.lock hl).1) (by decide)
  obtain ⟨hlen, hstep⟩ := (Lane.inStep_driven_iff hhalf).mp h.inStep
  unfold Lane.sampleRx
  dsimp only
  split at hstep
  · rename_i hslot
    rw [if_pos hslot]
    refine ⟨_, _, rfl, (Lane.inStep_sampled_iff rfl).mpr ⟨hlen, ?_⟩⟩
    have hin : (({ l with rxSample := rx, half := .sampled } : Lane).placeBit rx).inSlot = true := hslot
    have hnone : (({ l with rxSample := rx, half := .sampled } : Lane).placeBit rx).lockNotice.isNone = true := by
      simp [Lane.placeBit, hlock]
    rw [if_pos (by simp [hin, hnone])]
    exact .inl ⟨congrArg (· + 1) hstep.1, hstep.2⟩
  · rename_i hslot
    rw [if_neg hslot]
    refine ⟨_, _, rfl, (Lane.inStep_sampled_iff rfl).mpr ⟨hlen, ?_⟩⟩
    have hout : ({ l with rxSample := rx, half := .sampled } : Lane).inSlot = false := Bool.eq_false_of_not_eq_true hslot
    rw [if_neg (by simp [hout])]
    exact hstep

theorem Lane.Framed.sampleRunning {l : Lane} (h : l.Framed) (rx sync : Bool) : (l.sampleRunning rx sync).Framed := by
  unfold Lane.sampleRunning
  split
  · rename_i hhalf
    obtain ⟨cell, bits, heq, hstep⟩ := h.sampleRx hhalf rx
    have hlock : l.lockNotice = none := by
      by_contra hl
      exact absurd (hhalf.symm.trans (h.lock hl).1) (by decide)
    split
    · rename_i hrole
      rw [heq] at hstep ⊢
      have hbetween : l.between = false := by
        by_contra hb
        have hstarts := (h.between (Bool.eq_true_of_not_eq_false hb)).2.1
        simp [LaneConfig.startsAtDrive, hrole] at hstarts
      exact ⟨⟨h.cfg, h.good, h.missed, fun hf => absurd (hrole.symm.trans hf) (by decide)⟩, h.framing, hstep,
        fun _ => rfl, fun hb => absurd (hbetween.symm.trans hb) (by decide), fun hl => absurd hlock hl⟩
    · rename_i hrole
      rw [heq] at hstep ⊢
      refine ⟨⟨h.cfg, h.good, h.missed, h.pins⟩, h.framing, hstep, fun _ => rfl, fun hb => ?_,
        fun hl => absurd hlock hl⟩
      have hbetween : l.between = true := hb
      obtain ⟨hpos, hstarts, -⟩ := h.between hbetween
      exact ⟨hpos, hstarts, .inr (by simp [Lane.isCheckPoint, hbetween])⟩
  · exact h
  · exact h

theorem Lane.Ok.samplingEdge {l : Lane} (h : l.Ok) (rx sync : Bool) : (l.samplingEdge rx sync).Ok := by
  unfold Lane.samplingEdge
  split
  · exact h
  · rename_i hstate
    exact ((h.idle (l.not_framing_iff.mpr (.inr (.inl hstate)))).sampleHunting rx sync).ok
  · rename_i hstate
    exact ((h.idle (l.not_framing_iff.mpr (.inr (.inr hstate)))).sampleHunting rx sync).ok
  · rename_i hstate
    exact ((h.framed (l.framing_iff.mpr (.inl hstate))).sampleRunning rx sync).ok
  · rename_i hstate
    exact ((h.framed (l.framing_iff.mpr (.inr hstate))).sampleRunning rx sync).ok

/-! ## Slot starts and frame starts (R48, R95) -/

/-- What a frame start asks of the record: RUNNING or STOPPING, and no check point still to be taken. -/
structure Lane.CanOpen (l : Lane) : Prop extends l.Basics where
  framing : l.framing = true
  check : l.checkDue = false

/-- The record after the frame start and the slot start of slot 0: at the opening of position 0. -/
theorem Lane.CanOpen.opened {l : Lane} (h : l.CanOpen) (tx : TxCell) (rx : RxTarget) :
    (l.openFrame.loadSlot tx rx).Framed := by
  refine ⟨⟨h.cfg, h.good, h.missed, h.pins⟩, h.framing, ?_, fun hc => absurd (h.check.symm.trans hc) (by decide),
    fun hb => (by cases hb), fun hl => absurd rfl hl⟩
  exact (Lane.inStep_opening_iff rfl).mpr ⟨h.cfg.frameLen_pos, rfl, h.cfg.slotsLen_pos, Nat.zero_mod _, rfl, rfl⟩

theorem Lane.Framed.toCanOpen {l : Lane} (h : l.Framed) (hcheck : l.checkDue = false) : l.CanOpen :=
  ⟨h.toBasics, h.framing, hcheck⟩

/-- A frame start at a sampling edge: bit 0 of slot 0 is driven and sampled (R49, R101). -/
theorem Lane.CanOpen.atSampledStart {l : Lane} (h : l.CanOpen) (tx : TxCell) (rx : RxTarget) :
    (l.openFrame.loadSlot tx rx).atSampledStart.Framed := by
  have hslot : (l.openFrame.loadSlot tx rx).inSlot = true := by
    exact (Lane.inSlot_iff _).mpr ⟨rfl, h.cfg.slotsLen_pos⟩
  have htx : (l.openFrame.loadSlot tx rx).TxDriven 0 := by
    cases tx <;> rfl
  have htx' := Lane.txDriven_driveBit hslot htx
  unfold Lane.atSampledStart
  rw [Lane.driveBit_frame] at htx' ⊢
  refine ⟨⟨h.cfg, h.good, h.missed, h.pins⟩, h.framing, ?_, fun _ => rfl, fun hb => (by cases hb), fun hl => absurd rfl hl⟩
  refine (Lane.inStep_sampled_iff rfl).mpr ⟨h.cfg.frameLen_pos, ?_⟩
  refine (if_pos ?_).mpr (.inl ⟨?_, ?_⟩)
  · exact Bool.and_eq_true_iff.mpr ⟨(Lane.inSlot_iff _).mpr ⟨rfl, h.cfg.slotsLen_pos⟩, rfl⟩
  · show 0 + 1 = 0 % l.cfg.width + 1
    rw [Nat.zero_mod]
  · show Lane.TxDriven _ (0 % l.cfg.width + 1)
    rw [Nat.zero_mod]
    exact htx'

/-- A slot start inside a frame. -/
theorem Lane.Framed.openNext {l : Lane} (h : l.Framed) (hdue : l.slotStartDue = true) (tx : TxCell) (rx : RxTarget) :
    (l.openNext.loadSlot tx rx).Framed := by
  simp only [Lane.slotStartDue, Bool.and_eq_true, decide_eq_true_eq, beq_iff_eq, Bool.not_eq_true'] at hdue
  obtain ⟨⟨⟨⟨⟨-, -⟩, hbetween⟩, howes⟩, hlt⟩, hzero⟩ := hdue
  have hcheck := (l.not_owes_iff.mp howes).2.1
  have hframe := l.cfg.slotsLen_le_frameLen
  have hlock : l.lockNotice = none := by
    by_contra hl
    have hlast := (h.lock hl).2.2
    omega
  refine ⟨⟨h.cfg, h.good, h.missed, h.pins⟩, h.framing, ?_, fun hc => absurd (hcheck.symm.trans hc) (by decide),
    fun hb => absurd (hbetween.symm.trans hb) (by decide), fun hl => absurd hlock hl⟩
  exact (Lane.inStep_opening_iff rfl).mpr ⟨Nat.lt_of_lt_of_le hlt hframe, hbetween, hlt, hzero, rfl, rfl⟩

/-- A slot end is due only after the sampling edge of the slot's last position (R102). -/
theorem Lane.Framed.unloadSlot {l : Lane} (h : l.Framed) (hdue : l.slotEndDue = true) : l.unloadSlot.Framed := by
  have hrx : l.rxBits = l.cfg.width := by simpa [Lane.slotEndDue] using hdue
  have hwidth := h.cfg.width_pos
  have hmod : l.position % l.cfg.width < l.cfg.width := Nat.mod_lt _ hwidth
  have hloaded : ¬l.Unloaded := fun hun => by
    have hzero : l.rxBits = 0 := hun.2.2.2.1
    omega
  cases hhalf : l.half with
  | opening =>
    have hzero := ((Lane.inStep_opening_iff hhalf).mp h.inStep).2.2.2.2.2
    omega
  | driven =>
    have hstep := ((Lane.inStep_driven_iff hhalf).mp h.inStep).2
    split at hstep
    · omega
    · exact absurd hstep.1 hloaded
  | sampled =>
    cases hslot : l.inSlot && l.lockNotice.isNone with
    | false => exact absurd (h.sampled_gap hhalf hslot).1 hloaded
    | true =>
      have hboth := hslot
      rw [Bool.and_eq_true, Option.isNone_iff_eq_none] at hboth
      rcases h.sampled_slot hhalf hboth.1 hboth.2 with ⟨hbits, -⟩ | ⟨-, hun⟩
      · refine ⟨⟨h.cfg, h.good, h.missed, h.pins⟩, h.framing, ?_, h.check, h.between, h.lock⟩
        refine (Lane.inStep_sampled_iff (l := l.unloadSlot) hhalf).mpr ⟨h.position_lt, ?_⟩
        have hslot' : (l.unloadSlot.inSlot && l.unloadSlot.lockNotice.isNone) = true := hslot
        rw [if_pos hslot']
        exact .inr ⟨LaneConfig.next_mod_of_last (hbits.symm.trans hrx), rfl, rfl, rfl, rfl, rfl⟩
      · exact absurd hun hloaded

/-! ## Lock, loss and OFF (R53, R59 to R66) -/

theorem Lane.Basics.toOff {l : Lane} (h : l.Basics) : l.toOff.Idle where
  cfg := h.cfg
  good := Nat.zero_le _
  missed := Nat.zero_le _
  pins _ := ⟨rfl, rfl⟩
  framing := rfl
  off _ := ⟨rfl, rfl, rfl, rfl⟩
  hunting hon := absurd rfl hon
  silent := ⟨⟨rfl, rfl, rfl, rfl, rfl⟩, rfl⟩
  check := rfl
  between := rfl
  lock := rfl

/-- What lock asks of the record: no frame in flight, and no check point still to be taken. -/
structure Lane.CanLock (l : Lane) : Prop extends l.Basics where
  silent : l.Silent
  check : l.checkDue = false

theorem Lane.CanLock.canOpen {l : Lane} (h : l.CanLock) (k : LockKind) : (l.toLocked k).CanOpen :=
  ⟨⟨h.cfg, h.good, Nat.zero_le _, h.pins⟩, rfl, h.check⟩

/-- With SYNC_EARLY on the lane stands in the last position of the frame before, its lock notice owed. -/
theorem Lane.CanLock.lockedEarly {l : Lane} (h : l.CanLock) (k : LockKind) (hearly : l.cfg.syncEarly = true) :
    (l.toLocked k).Framed := by
  have hframe := h.cfg.frameLen_pos
  have hlast : (l.toLocked k).position = l.cfg.frameLen - 1 := if_pos hearly
  have hnext : (l.toLocked k).position + 1 = l.cfg.frameLen := by omega
  refine ⟨(h.canOpen k).toBasics, rfl, ?_, fun _ => rfl, fun hb => (by cases hb), fun _ => ⟨rfl, hearly, hnext⟩⟩
  refine (Lane.inStep_sampled_iff rfl).mpr ⟨?_, ?_⟩
  · show (l.toLocked k).position < l.cfg.frameLen
    omega
  · have howed : ((l.toLocked k).inSlot && (l.toLocked k).lockNotice.isNone) = false := Bool.and_false _
    rw [if_neg (by simp [howed])]
    exact ⟨h.silent.1, .inl h.silent.2⟩

theorem Lane.Basics.toHunt {l : Lane} (h : l.Basics) (cause : LossCause) : (l.toHunt cause).CanLock where
  cfg := h.cfg
  good := by
    show (if cause = .misaligned then 1 else 0) ≤ l.cfg.relock
    have hrelock := h.cfg.relock_pos
    split <;> omega
  missed := Nat.zero_le _
  pins := h.pins
  silent := ⟨⟨rfl, rfl, rfl, rfl, rfl⟩, rfl⟩
  check := rfl

/-- In HUNT, where GoodSyncs has not reached K. -/
theorem Lane.Basics.toHunt_idle {l : Lane} (h : l.Basics) (hrole : l.cfg.role = .follower) (cause : LossCause)
    (hk : (l.toHunt cause).goodSyncs ≠ l.cfg.relock) : (l.toHunt cause).Idle where
  toBasics := (h.toHunt cause).toBasics
  framing := rfl
  off hoff := by cases hoff
  hunting _ := ⟨hrole, Nat.lt_of_le_of_ne (h.toHunt cause).good hk⟩
  silent := (h.toHunt cause).silent
  check := rfl
  between := rfl
  lock := rfl

theorem Lane.Idle.countSync_canLock {l : Lane} (h : l.Idle) (hon : l.state ≠ .off) : l.countSync.CanLock where
  cfg := h.cfg
  good := by
    have hgood := (h.hunting hon).2
    have hrelock := h.cfg.relock_pos
    simp only [Lane.countSync]
    split <;> omega
  missed := h.missed
  pins := h.pins
  silent := h.silent
  check := h.check

theorem Lane.Idle.countSync {l : Lane} (h : l.Idle) (hon : l.state ≠ .off)
    (hk : l.countSync.goodSyncs ≠ l.cfg.relock) : l.countSync.Idle where
  toBasics := (h.countSync_canLock hon).toBasics
  framing := h.framing
  off hoff := absurd hoff hon
  hunting _ := ⟨(h.hunting hon).1, Nat.lt_of_le_of_ne (h.countSync_canLock hon).good hk⟩
  silent := h.silent
  check := h.check
  between := h.between
  lock := h.lock

/-! ## The lanes of the part -/

/-- Of the lanes only lane `n` changes, and its record stays well formed. -/
structure State.KeepsLane (s t : State) (n : LaneId) : Prop where
  others : s.SameLanesBut t n
  ok : (t.lane n).Ok

theorem State.KeepsLane.lanesOk {s t : State} {n : LaneId} (h : s.KeepsLane t n) (hs : s.LanesOk) : t.LanesOk := by
  intro m
  by_cases hm : m = n
  · subst hm; exact h.ok
  · rw [h.others m hm]; exact hs m

theorem State.keepsLane_setLane {s : State} {n : LaneId} {l : Lane} (h : l.Ok) : s.KeepsLane (s.setLane n l) n :=
  ⟨fun m hm => by simp [hm], by simpa using h⟩

theorem State.keepsLane_refl {s : State} {n : LaneId} (h : (s.lane n).Ok) : s.KeepsLane s n := ⟨fun _ _ => rfl, h⟩

/-- Work at the other lanes' expense before the lane's own: lane `n` alone may have changed by then. -/
theorem State.KeepsLane.of_others {s t u : State} {n : LaneId} (h : t.KeepsLane u n) (hs : s.SameLanesBut t n) :
    s.KeepsLane u n :=
  ⟨fun m hm => (h.others m hm).trans (hs m hm), h.ok⟩

theorem State.sameLanesBut_setLane (s : State) (n : LaneId) (l : Lane) : s.SameLanesBut (s.setLane n l) n :=
  fun m hm => by simp [hm]

theorem State.keepsLane_frameStart {s : State} {n : LaneId} (h : (s.lane n).CanOpen) :
    s.KeepsLane (s.frameStart n) n := by
  obtain ⟨tx, rx, heq⟩ := s.lane_frameStart_self n
  exact ⟨fun m hm => s.lane_frameStart_of_ne hm, by rw [heq]; exact (h.opened tx rx).ok⟩

theorem State.keepsLane_frameStartSampled {s : State} {n : LaneId} (h : (s.lane n).CanOpen) :
    s.KeepsLane (s.frameStartSampled n) n := by
  obtain ⟨tx, rx, heq⟩ := s.lane_frameStart_self n
  refine (State.keepsLane_setLane ?_).of_others fun m hm => s.lane_frameStart_of_ne hm
  rw [heq]
  exact (h.atSampledStart tx rx).ok

theorem State.keepsLane_lock {s : State} {n : LaneId} (h : (s.lane n).CanLock) (k : LockKind) :
    s.KeepsLane (s.lock n k) n := by
  unfold State.lock
  dsimp only
  split
  · rename_i hearly
    exact State.keepsLane_setLane (h.lockedEarly k hearly).ok
  · refine (State.keepsLane_frameStartSampled ?_).of_others (s.sameLanesBut_setLane n _)
    rw [State.lane_setLane_self]
    exact h.canOpen k

theorem State.keepsLane_enterHunt {s : State} {n : LaneId} (h : (s.lane n).Basics)
    (hrole : (s.lane n).cfg.role = .follower) (cause : LossCause) : s.KeepsLane (s.enterHunt n cause) n := by
  have hothers : s.SameLanesBut ((s.setLane n ((s.lane n).toHunt cause)).post
      ⟨.laneLost, .lane n, some (s.lane n).frameCount, BitVec.ofNat 8 cause.code⟩) n := s.sameLanesBut_setLane n _
  unfold State.enterHunt
  dsimp only
  split
  · refine (State.keepsLane_lock ?_ _).of_others hothers
    rw [State.lane_post, State.lane_setLane_self]
    exact h.toHunt cause
  · rename_i hk
    refine ⟨hothers, ?_⟩
    rw [State.lane_post, State.lane_setLane_self] at hk ⊢
    exact (h.toHunt_idle hrole cause hk).ok

theorem State.keepsLane_enterOff {s : State} {n : LaneId} (h : (s.lane n).Basics) : s.KeepsLane (s.enterOff n) n :=
  ⟨fun _ hm => s.lane_enterOff_of_ne hm, by rw [State.lane_enterOff_self]; exact h.toOff.ok⟩

theorem State.keepsLane_earlyStop {s : State} {n : LaneId} (h : (s.lane n).Basics) (cause : LossCause) :
    s.KeepsLane (s.earlyStop n cause) n := by
  refine (State.keepsLane_enterOff ?_).of_others (t := (s.setLane n _).postStopped n 1) (s.sameLanesBut_setLane n _)
  show (((s.setLane n { s.lane n with lastCause := cause })).lane n).Basics
  rw [State.lane_setLane_self]
  exact ⟨h.cfg, h.good, h.missed, h.pins⟩

theorem State.keepsLane_completeStop {s : State} {n : LaneId} (h : (s.lane n).Basics) :
    s.KeepsLane (s.completeStop n) n :=
  (State.keepsLane_enterOff (s := s.postStopped n 0) h).of_others fun _ _ => rfl

/-! ### Events (R48, R51, R58 to R67, R102) -/

/-- A lane that stands in ARMING or HUNT counts an arrival, and locks at K (R59). -/
theorem State.keepsLane_count {s : State} {n : LaneId} (h : (s.lane n).Idle) (hon : (s.lane n).state ≠ .off)
    (k : LockKind) :
    s.KeepsLane
      (if (s.lane n).countSync.goodSyncs = (s.lane n).cfg.relock then (s.setLane n (s.lane n).countSync).lock n k
        else s.setLane n (s.lane n).countSync) n := by
  split
  · refine (State.keepsLane_lock ?_ k).of_others (s.sameLanesBut_setLane n _)
    rw [State.lane_setLane_self]
    exact h.countSync_canLock hon
  · rename_i hk
    exact State.keepsLane_setLane (h.countSync hon hk).ok

theorem State.keepsLane_syncArrival {s : State} {n : LaneId} (h : (s.lane n).Ok) :
    s.KeepsLane (s.syncArrival n) n := by
  have hbasics : ({ s.lane n with arrivalDue := false } : Lane).Basics := { h.basics with }
  unfold State.syncArrival
  dsimp only
  split
  · rename_i hguard
    have hrole : (s.lane n).cfg.role = .follower := by simp at hguard; exact hguard.2
    split
    · exact State.keepsLane_refl h
    · rename_i hstate
      exact State.keepsLane_count (h.idle ((Lane.not_framing_iff _).mpr (.inr (.inl hstate)))) (by simp [hstate]) _
    · rename_i hstate
      exact State.keepsLane_count (h.idle ((Lane.not_framing_iff _).mpr (.inr (.inr hstate)))) (by simp [hstate]) _
    · refine (State.keepsLane_enterHunt ?_ ?_ _).of_others (s.sameLanesBut_setLane n _)
      · rw [State.lane_setLane_self]; exact hbasics
      · rw [State.lane_setLane_self]; exact hrole
    · refine (State.keepsLane_earlyStop ?_ _).of_others (s.sameLanesBut_setLane n _)
      rw [State.lane_setLane_self]; exact hbasics
  · exact State.keepsLane_refl h

/-- The check point of a RUNNING lane that goes on: the frame start here, or at the next drive edge (R62, R63). -/
theorem State.keepsLane_afterCheck {s : State} {n : LaneId} {missed : Nat} (h : (s.lane n).Framed)
    (hhalf : (s.lane n).half = .sampled) (hmissed : missed ≤ (s.lane n).cfg.flywheel) :
    s.KeepsLane ((s.setLane n { (s.lane n).checked with missedRun := missed }).afterCheck n) n := by
  have hbasics : ({ (s.lane n).checked with missedRun := missed } : Lane).Basics := ⟨h.cfg, h.good, hmissed, h.pins⟩
  unfold State.afterCheck
  rw [State.lane_setLane_self]
  split
  · rename_i hearly
    have hbetween : (s.lane n).between = false := by
      by_contra hb
      have hstarts := (h.between (Bool.eq_true_of_not_eq_false hb)).2.1
      have hearly' : (s.lane n).cfg.syncEarly = true := hearly
      simp [LaneConfig.startsAtDrive, hearly'] at hstarts
    refine State.keepsLane_setLane (Lane.Framed.ok ⟨hbasics, h.framing, ?_, fun hc => (by cases hc),
      fun hb => absurd (hbetween.symm.trans hb) (by decide), h.lock⟩)
    have hstep := (Lane.inStep_sampled_iff hhalf).mp h.inStep
    exact (Lane.inStep_sampled_iff (l := { (s.lane n).checked with missedRun := missed }) hhalf).mpr hstep
  · refine (State.keepsLane_frameStartSampled ?_).of_others (s.sameLanesBut_setLane n _)
    rw [State.lane_setLane_self]
    exact ⟨hbasics, h.framing, rfl⟩

theorem State.keepsLane_syncCheckPoint {s : State} {n : LaneId} (h : (s.lane n).Ok) :
    s.KeepsLane (s.syncCheckPoint n) n := by
  have hbasics : (s.lane n).checked.Basics := { h.basics with }
  unfold State.syncCheckPoint
  dsimp only
  split
  · rename_i htaken
    simp only [Lane.checkTaken, Bool.and_eq_true, beq_iff_eq] at htaken
    obtain ⟨⟨hcheck, -⟩, hrole⟩ := htaken
    split
    · rename_i hstate
      have hframed := h.framed ((Lane.framing_iff _).mpr (.inl hstate))
      have hhalf := hframed.check hcheck
      split
      · exact State.keepsLane_afterCheck hframed hhalf (Nat.zero_le _)
      · split
        · rename_i hmiss
          exact State.keepsLane_afterCheck hframed hhalf hmiss
        · refine (State.keepsLane_enterHunt ?_ ?_ _).of_others (s.sameLanesBut_setLane n _)
          · rw [State.lane_setLane_self]; exact hbasics
          · rw [State.lane_setLane_self]; exact hrole
    · rename_i hstate
      have hframed := h.framed ((Lane.framing_iff _).mpr (.inr hstate))
      have hhalf := hframed.check hcheck
      split
      · refine (State.keepsLane_completeStop ?_).of_others (s.sameLanesBut_setLane n _)
        rw [State.lane_setLane_self]; exact hbasics
      · rename_i hbetween
        have hmissed : (if (s.lane n).arrivalDue then 0 else (s.lane n).missedRun) ≤ (s.lane n).cfg.flywheel := by
          have hle := hframed.missed
          split <;> omega
        refine State.keepsLane_setLane (Lane.Framed.ok ⟨⟨hframed.cfg, hframed.good, hmissed, hframed.pins⟩,
          hframed.framing, ?_, fun hc => (by cases hc), fun hb => absurd hb hbetween, hframed.lock⟩)
        have hstep := (Lane.inStep_sampled_iff hhalf).mp hframed.inStep
        exact (Lane.inStep_sampled_iff hhalf).mpr hstep
    · exact State.keepsLane_refl h
    · exact State.keepsLane_refl h
    · exact State.keepsLane_refl h
  · exact State.keepsLane_refl h

/-- A lane in ARMING or HUNT whose watch expires counts from 0 again (R58). -/
theorem Lane.Idle.uncounted {l : Lane} (h : l.Idle) (hon : l.state ≠ .off) :
    ({ l with watchRunning := false, goodSyncs := 0, lastSync := none } : Lane).Idle where
  cfg := h.cfg
  good := Nat.zero_le _
  missed := h.missed
  pins := h.pins
  framing := h.framing
  off hoff := absurd hoff hon
  hunting _ := ⟨(h.hunting hon).1, h.cfg.relock_pos⟩
  silent := h.silent
  check := h.check
  between := h.between
  lock := h.lock

theorem State.keepsLane_watchExpiry {s : State} {n : LaneId} (h : (s.lane n).Ok) :
    s.KeepsLane (s.watchExpiry n) n := by
  have hbasics : ({ s.lane n with watchRunning := false } : Lane).Basics := { h.basics with }
  unfold State.watchExpiry
  dsimp only
  split
  · rename_i hguard
    have hrole : (s.lane n).cfg.role = .follower := by simp at hguard; exact hguard.2
    split
    · exact State.keepsLane_refl h
    · rename_i hstate
      exact State.keepsLane_setLane
        ((h.idle ((Lane.not_framing_iff _).mpr (.inr (.inl hstate)))).uncounted (by simp [hstate])).ok
    · rename_i hstate
      exact State.keepsLane_setLane
        ((h.idle ((Lane.not_framing_iff _).mpr (.inr (.inr hstate)))).uncounted (by simp [hstate])).ok
    · refine (State.keepsLane_enterHunt ?_ ?_ _).of_others (s.sameLanesBut_setLane n _)
      · rw [State.lane_setLane_self]; exact hbasics
      · rw [State.lane_setLane_self]; exact hrole
    · refine (State.keepsLane_earlyStop ?_ _).of_others (s.sameLanesBut_setLane n _)
      rw [State.lane_setLane_self]; exact hbasics
  · exact State.keepsLane_refl h

theorem Lane.frameStartDue_iff (l : Lane) :
    l.frameStartDue = true ↔ l.state = .running ∧ l.cfg.startsAtDrive = true ∧ l.atFrameEnd = true := by
  simp [Lane.frameStartDue, and_assoc]

theorem Lane.atFrameEnd_iff (l : Lane) :
    l.atFrameEnd = true ↔ l.half = .sampled ∧ l.between = false ∧ l.position + 1 = l.cfg.frameLen ∧ l.owes = false := by
  simp [Lane.atFrameEnd, and_assoc]

theorem State.keepsLane_frameStartEvent {s : State} {n : LaneId} (h : (s.lane n).Ok) :
    s.KeepsLane (s.frameStartEvent n) n := by
  unfold State.frameStartEvent
  split
  · rename_i hdue
    obtain ⟨hstate, -, hend⟩ := (Lane.frameStartDue_iff _).mp hdue
    obtain ⟨-, -, -, howes⟩ := (Lane.atFrameEnd_iff _).mp hend
    have hframed := h.framed ((Lane.framing_iff _).mpr (.inl hstate))
    exact State.keepsLane_frameStart (hframed.toCanOpen ((Lane.not_owes_iff _).mp howes).2.1)
  · exact State.keepsLane_refl h

theorem State.keepsLane_slotStartEvent {s : State} {n : LaneId} (h : (s.lane n).Ok) :
    s.KeepsLane (s.slotStartEvent n) n := by
  unfold State.slotStartEvent
  dsimp only
  split
  · rename_i hdue
    have hframing : (s.lane n).framing = true := by
      simp only [Lane.slotStartDue, Bool.and_eq_true] at hdue
      exact hdue.1.1.1.1.1
    obtain ⟨tx, rx, heq⟩ := State.lane_slotStart_self (s.setLane n (s.lane n).openNext) n
      (((s.lane n).position + 1) / (s.lane n).cfg.width)
    refine ⟨fun m hm => (State.lane_slotStart_of_ne _ _ hm).trans (s.sameLanesBut_setLane n _ m hm), ?_⟩
    rw [heq, State.lane_setLane_self]
    exact ((h.framed hframing).openNext hdue tx rx).ok
  · exact State.keepsLane_refl h

theorem State.keepsLane_slotEnd {s : State} {n : LaneId} (h : (s.lane n).Ok) : s.KeepsLane (s.slotEnd n) n := by
  unfold State.slotEnd
  dsimp only
  split
  · rename_i hdue
    rw [Bool.and_eq_true] at hdue
    have hlane : ∀ m, (s.receiveHalf n (s.lane n).rxTarget (s.lane n).rxCell).lane m = s.lane m :=
      fun m => congrArg (·[m.val]) (s.moves_receiveHalf n _ _).lanes
    refine (State.keepsLane_setLane ?_).of_others fun m _ => hlane m
    rw [hlane]
    exact ((h.framed hdue.1).unloadSlot hdue.2).ok
  · exact State.keepsLane_refl h

theorem State.keepsLane_endOfFrame {s : State} {n : LaneId} (h : (s.lane n).Ok) :
    s.KeepsLane (s.endOfFrame n) n := by
  unfold State.endOfFrame
  split
  · exact State.keepsLane_completeStop h.basics
  · exact State.keepsLane_refl h

/-! ### Commands (R46, R50 to R52) -/

/-- A parameter written with one of its values (R46). -/
theorem LaneConfig.Ok.put {c : LaneConfig} {param value : Nat} (h : c.Ok) (hok : laneParamOk param value = true) :
    (c.put param value).Ok := by
  unfold laneParamOk at hok
  unfold LaneConfig.Ok at h ⊢
  split at hok <;> simp_all [LaneConfig.put, or_assoc]

/-- A lane in OFF keeps its record well formed under any parameters. -/
theorem Lane.Idle.configured {l : Lane} {c : LaneConfig} (h : l.Idle) (hoff : l.state = .off) (hc : c.Ok) :
    ({ l with cfg := c } : Lane).Idle := by
  obtain ⟨hbclk, hfsync, hgood, hmissed⟩ := h.off hoff
  refine ⟨⟨hc, ?_, ?_, fun _ => ⟨hbclk, hfsync⟩⟩, h.framing, h.off, fun hon => absurd hoff hon, h.silent, h.check,
    h.between, h.lock⟩
  · show l.goodSyncs ≤ c.relock
    omega
  · show l.missedRun ≤ c.flywheel
    omega

theorem State.keepsLane_putParam {s : State} {n : LaneId} {param value : Nat} (h : (s.lane n).Ok)
    (hoff : (s.lane n).state = .off) (hok : laneParamOk param value = true) :
    s.KeepsLane (s.putParam n param value) n := by
  have hconfigured := ((h.idle ((Lane.not_framing_iff _).mpr (.inl hoff))).configured hoff (h.basics.cfg.put hok)).ok
  unfold State.putParam
  dsimp only
  split
  · exact ⟨s.sameLanesBut_setLane n _, (State.keepsLane_setLane hconfigured).ok⟩
  · exact State.keepsLane_setLane hconfigured

theorem State.keepsLane_startMaster {s : State} {n : LaneId} (h : (s.lane n).Ok)
    (hrole : (s.lane n).cfg.role = .master) : s.KeepsLane (s.startMaster n) n := by
  have hopen : ({ (s.lane n).cleared with state := .running, lockNotice := some .locked } : Lane).CanOpen :=
    ⟨⟨h.basics.cfg, Nat.zero_le _, Nat.zero_le _, fun hf => absurd (hrole.symm.trans hf) (by decide)⟩, rfl, rfl⟩
  obtain ⟨tx, rx, heq⟩ := State.lane_frameStart_self
    (s.setLane n { (s.lane n).cleared with state := .running, lockNotice := some .locked }) n
  rw [State.lane_setLane_self] at heq
  have hframed := hopen.opened tx rx
  unfold State.startMaster
  refine (State.keepsLane_setLane ?_).of_others fun m hm =>
    (State.lane_frameStart_of_ne _ hm).trans (s.sameLanesBut_setLane n _ m hm)
  rw [heq]
  have hdriven := hframed.driveRunning
  exact hdriven.ok

theorem State.keepsLane_startFollower {s : State} {n : LaneId} (h : (s.lane n).Ok)
    (hoff : (s.lane n).state = .off) (hrole : (s.lane n).cfg.role = .follower) :
    s.KeepsLane (s.startFollower n) n := by
  have hidle := h.idle ((Lane.not_framing_iff _).mpr (.inl hoff))
  refine State.keepsLane_setLane (Lane.Idle.ok ?_)
  exact ⟨⟨hidle.cfg, Nat.zero_le _, Nat.zero_le _, hidle.pins⟩, rfl, fun ho => (by cases ho),
    fun _ => ⟨hrole, hidle.cfg.relock_pos⟩, hidle.silent, rfl, rfl, rfl⟩

/-- LANE_STOP leaves the frame in flight as it is (R51). -/
theorem Lane.Framed.stopping {l : Lane} (h : l.Framed) : ({ l with state := .stopping } : Lane).Framed :=
  ⟨⟨h.cfg, h.good, h.missed, h.pins⟩, rfl, h.inStep, h.check, h.between, h.lock⟩

@[simp] theorem State.lanes_mapSeats (s : State) (f : Side → RingId → Seat → Seat) :
    (s.mapSeats f).lanes = s.lanes := State.lanes_mapRings s _

@[simp] theorem State.lanes_reserveSeats (s : State) (n : LaneId) : (s.reserveSeats n).lanes = s.lanes :=
  s.lanes_mapSeats _

@[simp] theorem State.lanes_dropSwap (s : State) (n : LaneId) : (s.dropSwap n).lanes = s.lanes := by
  simp [State.dropSwap, State.unreserveSeats]

@[simp] theorem State.lanes_exchange (s : State) (n : LaneId) (frame : Option Word) :
    (s.exchange n frame).lanes = s.lanes := by
  simp [State.exchange, State.takeSeats, State.releaseSeats]

theorem State.lanesOk_of_same {s t : State} (h : t.lanes = s.lanes) (hs : s.LanesOk) : t.LanesOk := fun n => by
  have hlane : t.lane n = s.lane n := congrArg (·[n.val]) h
  rw [hlane]
  exact hs n

theorem Performs.lanesOk {code : Nat} {s t : State} {a : Answer} (hperforms : Performs code s t a) (h : s.LanesOk) :
    t.LanesOk := by
  cases hperforms with
  | refused | refusedSwap | answered | openRing | closeRing | policy | fill | clearStats | edit | setDma | halt =>
    exact State.lanesOk_of_same rfl h
  | mask lo =>
    exact State.lanesOk_of_same (s.moves_with_notices (s.notices.evolves_mask (maskOk_maskInForce lo))).lanes h
  | cancel n => exact State.lanesOk_of_same (s.lanes_dropSwap n) h
  | flush r ho hidle => exact State.lanesOk_of_same (State.moves_flush ho).lanes h
  | marks r low high ho hlt hle => exact State.lanesOk_of_same (by rw [State.rezone_frame]; rfl) h
  | attach a r side => exact State.lanesOk_of_same (by rw [State.attachAgent_frame]) h
  | detach a att => exact State.lanesOk_of_same (State.moves_clearAgent _ a).lanes h
  | go ch => exact State.lanesOk_of_same (State.moves_evaluate _ ch).lanes h
  | swapInOff n hoff hidle hvalid => exact State.lanesOk_of_same ((State.lanes_exchange _ n none).trans (s.lanes_reserveSeats n)) h
  | swapLater n => exact State.lanesOk_of_same ((State.lanes_setSmap _ n _).trans (s.lanes_reserveSeats n)) h
  | setParam n param value hok hoff => exact (State.keepsLane_putParam (h n) hoff hok).lanesOk h
  | startMaster n hoff hrole => exact (State.keepsLane_startMaster (h n) hrole).lanesOk h
  | startFollower n hoff hrole => exact (State.keepsLane_startFollower (h n) hoff hrole).lanesOk h
  | stop n hrunning =>
    exact (State.keepsLane_setLane ((h n).framed ((Lane.framing_iff _).mpr (.inl hrunning))).stopping.ok).lanesOk h
  | leave n => exact (State.keepsLane_enterOff (h n).basics).lanesOk h

theorem Lane.ok_reset : Lane.reset.Ok := by
  refine Lane.Idle.ok ⟨⟨?_, Nat.zero_le _, Nat.zero_le _, fun _ => ⟨rfl, rfl⟩⟩, rfl, fun _ => ⟨rfl, rfl, rfl, rfl⟩,
    fun hon => absurd rfl hon, ⟨⟨rfl, rfl, rfl, rfl, rfl⟩, rfl⟩, rfl, rfl, rfl⟩
  unfold LaneConfig.Ok
  decide

theorem State.StepsTo.lanesOk {s t : State} (hsteps : s.StepsTo t) (h : s.LanesOk) : t.LanesOk := by
  cases hsteps with
  | stays | undefinedRead | notReady | argument | pop | prFlags | pwFlags | chanFlags | gapEnd | release
  | startupEnd => exact State.lanesOk_of_same rfl h
  | performed code t a haccepts hperforms => exact State.lanesOk_of_same rfl (hperforms.lanesOk h)
  | softReset | pinReset | commandMetPin => exact fun n => (State.lane_reset n).symm ▸ Lane.ok_reset
  | prRead => exact State.lanesOk_of_same s.moves_prRead.lanes h
  | pwStage v => exact State.lanesOk_of_same (s.moves_pwStage v).lanes h
  | pwPush v => exact State.lanesOk_of_same (s.moves_pwPush v).lanes h
  | lowRead ch w => exact State.lanesOk_of_same (s.moves_addressedLow ch none).lanes h
  | lowWrite ch v => exact State.lanesOk_of_same (s.moves_addressedLow ch _).lanes h
  | highWrite ch v => exact State.lanesOk_of_same (s.moves_addressedHighWrite ch v).lanes h
  | strobe dak0 dak1 write => exact State.lanesOk_of_same (s.moves_ackStrobe dak0 dak1 write).lanes h
  | startupPeriod =>
    refine State.lanesOk_of_same ?_ h
    unfold State.startupPeriod
    split
    · rfl
    · split <;> rfl
  | syncArrival n => exact (State.keepsLane_syncArrival (h n)).lanesOk h
  | syncCheckPoint n => exact (State.keepsLane_syncCheckPoint (h n)).lanesOk h
  | frameStart n => exact (State.keepsLane_frameStartEvent (h n)).lanesOk h
  | slotStart n => exact (State.keepsLane_slotStartEvent (h n)).lanesOk h
  | slotEnd n => exact (State.keepsLane_slotEnd (h n)).lanesOk h
  | endOfFrame n => exact (State.keepsLane_endOfFrame (h n)).lanesOk h
  | watchExpiry n => exact (State.keepsLane_watchExpiry (h n)).lanesOk h
  | driveEdge n => exact (State.keepsLane_setLane (h n).driveEdge).lanesOk h
  | samplingEdge n rx sync => exact (State.keepsLane_setLane ((h n).samplingEdge rx sync)).lanesOk h

/-- Settles O58: every event of a lane takes its record from one place of the frame to the next. -/
theorem stepKeepsLanesInStep : Obligations.StepKeepsLanesInStep := by
  intro s t hlanes hstep
  obtain ⟨rest, hsteps⟩ := step_stepsTo hstep
  exact hsteps.lanesOk hlanes

end Sys2Proof.Machine
end

section
/-! PROOFS. The queue, the resets and start-up, and what the window answers before an owner is asked (R149, R150, R158,
R170, R175 to R178). -/

namespace Sys2Proof.Machine

/-! ## One period of start-up (R176) -/

/-- Settles O1: this is how `step` is defined. -/
theorem stepRunsTheFrontCommand : Obligations.StepRunsTheFrontCommand := fun _ _ _ => rfl

theorem step_of_empty {s : State} (h : s.pending = []) : step s = .next s.idle := by
  simp only [step, h]

theorem State.starting_iff (s : State) : s.starting = true ↔ s.resetLow = false ∧ s.win.ready = false := by
  simp [State.starting]

theorem State.idle_of_starting {s : State} (h : s.starting = true) : s.idle = s.startupPeriod := if_pos h

theorem State.idle_of_not_starting {s : State} (h : s.resetLow = true ∨ s.win.ready = true) : s.idle = s := by
  refine if_neg fun hstarting => ?_
  obtain ⟨hhigh, hstartup⟩ := s.starting_iff.mp hstarting
  simp [hhigh, hstartup] at h

theorem State.startupPeriod_before {s : State} (h : s.period < 8) :
    s.startupPeriod = { s with period := s.period + 1 } := if_pos h

theorem State.startupPeriod_clears {s : State} (h : 8 ≤ s.period) (hc : s.clearAddr < 4095) :
    s.startupPeriod = { s with
      mem := Memory.clearWord s.mem s.clearAddr, clearAddr := s.clearAddr + 1, period := s.period + 1 } := by
  have hword : s.clearAddr + 1 < Config.memWords := by simp only [Config.memWords]; omega
  exact (if_neg (Nat.not_lt.mpr h)).trans (if_pos hword)

theorem State.startupPeriod_ends {s : State} (h : 8 ≤ s.period) (hc : 4095 ≤ s.clearAddr) :
    s.startupPeriod = ({ s with period := s.period + 1 } : State).endStartup := by
  have hword : ¬s.clearAddr + 1 < Config.memWords := by simp only [Config.memWords]; omega
  exact (if_neg (Nat.not_lt.mpr h)).trans (if_neg hword)

/-- The clearing of a word, read at every word (R176). -/
theorem Memory.readWord_clearWord {m : List Host.Cell} {word : Nat} (hm : Memory.wf m = true)
    (hword : word < Config.memWords) (w : Nat) :
    Memory.readWord (Memory.clearWord m word) w = if w = word then 0 else Memory.readWord m w := by
  have hbytes : 4 * word + 4 ≤ Config.memBytes := by simp only [Config.memWords, Config.memBytes] at hword ⊢; omega
  split
  · rename_i h
    subst h
    simp only [Memory.readWord, Memory.clearWord, Memory.readBytes_writeBytes_self _ _ _ hm hbytes, Nat.zero_mod]
    rfl
  · rename_i h
    simp only [Memory.readWord, Memory.clearWord]
    rw [Memory.readBytes_congr _ _ fun i hlo hhi => Memory.read_writeBytes_outside m _ _ _ (by omega)]

theorem Memory.readBytes_nil (a n : Nat) : Memory.readBytes [] a n = 0 := by
  induction n generalizing a with
  | zero => rfl
  | succ n ih => simp [Memory.readBytes, Memory.read, ih]

theorem Memory.readWord_nil (w : Nat) : Memory.readWord [] w = 0 := by
  simp [Memory.readWord, Memory.readBytes_nil]

/-- Settles O2: the branches of `startupPeriod`, taken where start-up runs. -/
theorem emptyQueueStepIsOnePeriod : Obligations.EmptyQueueStepIsOnePeriod := by
  intro s hs
  rw [step_of_empty hs]
  refine ⟨fun h => by rw [State.idle_of_not_starting h], fun hhigh hstartup => ?_⟩
  rw [State.idle_of_starting (s.starting_iff.mpr ⟨hhigh, hstartup⟩)]
  refine ⟨fun hbefore => ?_, fun hperiod hclear hm => ?_, fun hperiod hclear => ?_⟩
  · rw [State.startupPeriod_before hbefore]
  · refine ⟨_, congrArg _ (State.startupPeriod_clears hperiod hclear), rfl, fun w => ?_⟩
    exact Memory.readWord_clearWord hm (by simp only [Config.memWords]; omega) w
  · rw [State.startupPeriod_ends hperiod hclear]
    rfl

/-! ## The length of start-up (R176) -/

/-- The part stands at the beginning of period `k` of start-up, with no command waiting. -/
structure State.InPeriod (s : State) (k : Nat) : Prop where
  high : s.resetLow = false
  startup : s.win.ready = false
  alone : s.pending = []
  clear : s.clearAddr = k - 8
  period : s.period = k

theorem State.InPeriod.step_eq {s : State} {k : Nat} (h : s.InPeriod k) : step s = .next s.startupPeriod := by
  rw [step_of_empty h.alone, State.idle_of_starting (s.starting_iff.mpr ⟨h.high, h.startup⟩)]

/-- Before period 4103 a step begins the next period. -/
theorem State.InPeriod.next {s : State} {k : Nat} (h : s.InPeriod k) (hk : k < 4103) :
    s.startupPeriod.InPeriod (k + 1) := by
  obtain ⟨hhigh, hstartup, halone, hclear, hperiod⟩ := h
  by_cases hbefore : s.period < 8
  · rw [State.startupPeriod_before hbefore]
    exact ⟨hhigh, hstartup, halone, show s.clearAddr = _ by omega, show s.period + 1 = _ by omega⟩
  · rw [State.startupPeriod_clears (by omega) (by omega)]
    exact ⟨hhigh, hstartup, halone, show s.clearAddr + 1 = _ by omega, show s.period + 1 = _ by omega⟩

/-- A run with one more step takes that step at its end. -/
theorem run_succ_of_run {M : Host.Core} {k : Nat} {s t : M.State} (h : M.run k s = .next t) :
    M.run (k + 1) s = M.step t := by
  induction k generalizing s with
  | zero =>
    cases h
    simp only [Host.Core.run]
    cases M.step t <;> rfl
  | succ k ih =>
    rw [Host.Core.run] at h ⊢
    cases hs : M.step s with
    | next u =>
      rw [hs] at h
      exact ih h
    | fault f => rw [hs] at h; cases h
    | refused x => rw [hs] at h; cases h

theorem State.InPeriod.run {s : State} (h : s.InPeriod 0) :
    ∀ k, k ≤ 4103 → ∃ t, Sys2Proof.core.run k s = .next t ∧ t.InPeriod k := by
  intro k
  induction k with
  | zero => exact fun _ => ⟨s, rfl, h⟩
  | succ k ih =>
    intro hk
    obtain ⟨t, hrun, ht⟩ := ih (by omega)
    exact ⟨t.startupPeriod, (run_succ_of_run hrun).trans ht.step_eq, ht.next (by omega)⟩

/-- Settles O3: by induction on the periods the part is in period `k` after `k` steps, and period 4103 ends start-up. -/
theorem startupEndsInPeriod4103 : Obligations.StartupEndsInPeriod4103 := by
  intro s hhigh hstartup halone hclear hperiod
  have hbegins : s.InPeriod 0 := ⟨hhigh, hstartup, halone, hclear, hperiod⟩
  refine ⟨fun k hk => ?_, ?_⟩
  · obtain ⟨t, hrun, ht⟩ := hbegins.run k hk
    exact ⟨t, hrun, ht.startup, ht.clear⟩
  · obtain ⟨t, hrun, ht⟩ := hbegins.run 4103 (Nat.le_refl _)
    have hlast := State.startupPeriod_ends (s := t) (by have := ht.period; omega) (by have := ht.clear; omega)
    refine ⟨_, (run_succ_of_run hrun).trans (ht.step_eq.trans (congrArg _ hlast)), rfl, rfl, Memory.readWord_nil⟩

/-! ## Resets (R158, R159, R175) -/

theorem exec_softReset_of_high {s : State} (h : s.resetLow = false) : exec .softReset s = .next (s.resetWith false) :=
  congrArg _ (State.unlessReset_of_high _ h)

theorem exec_softReset_of_low {s : State} (h : s.resetLow = true) : exec .softReset s = .next s :=
  congrArg _ (State.unlessReset_of_low _ h)

/-- A write of `Cmd` meets the pin only where the pin was high (log 30). -/
theorem exec_reset_met (s : State) (code : Word) :
    exec (.reset (some code)) s =
      .next (if s.resetLow then s.resetWith true else (s.resetWith true).answerMet code) := rfl

theorem readRegister_reset (a : RegAddr) : State.reset.readRegister a = if a = 0x08 then 0x0080 else 0 := by
  revert a
  decide +kernel

/-- Settles O4: the resets by their branches, and the reset values block by block. -/
theorem resetsGiveEveryBlockItsResetValues : Obligations.ResetsGiveEveryBlockItsResetValues := by
  refine ⟨fun s => ⟨rfl, fun code hhigh hcode => ?met, ?metSoft, fun code hlow => ?unmet,
      fun hhigh => exec_softReset_of_high hhigh, fun hlow => exec_softReset_of_low hlow⟩,
    State.ring_reset, ?lanes, ?maps, ?agents, ⟨rfl, rfl, rfl, rfl, rfl⟩, ⟨rfl, rfl, rfl, rfl, rfl⟩, ?channels,
    ⟨rfl, rfl, rfl, ?mask⟩, rfl, rfl, rfl, readRegister_reset⟩
  case met =>
    rw [exec_reset_met, if_neg (by simp [hhigh]), State.answerMet, if_neg hcode]
    rfl
  case metSoft =>
    rw [exec_reset_met, State.answerMet, if_pos rfl, ite_self]
    rfl
  case unmet =>
    rw [exec_reset_met, if_pos hlow]
    rfl
  case lanes =>
    intro n
    rw [State.lane_reset]
    exact ⟨rfl, rfl, rfl, rfl, rfl, rfl, rfl, rfl, rfl, rfl, rfl, rfl, rfl, rfl, rfl, rfl, rfl, rfl⟩
  case maps =>
    intro n
    rw [State.smap_reset]
    exact ⟨rfl, rfl, fun i => ⟨Vector.getElem_replicate i.isLt, Vector.getElem_replicate i.isLt⟩⟩
  case agents =>
    intro a
    cases a with
    | pr => rfl
    | pw => rfl
    | dma ch => rw [State.attachOf, State.chan_reset]; rfl
  case channels =>
    intro ch
    rw [State.chan_reset]
    exact ⟨rfl, rfl, rfl, rfl, rfl, rfl, rfl, rfl, rfl, rfl, rfl, rfl, rfl, rfl⟩
  case mask =>
    intro k
    cases k <;> rfl

/-! ## Release and end of start-up (R175, R178) -/

theorem exec_startupEnd_of_starting {s : State} (h : s.starting = true) : exec .startupEnd s = .next s.endStartup :=
  congrArg _ (if_pos h)

/-- Settles O5: the release sets three fields; the end of start-up is `endStartup`, whose memory is empty. -/
theorem startupBeginsAndEnds : Obligations.StartupBeginsAndEnds := by
  refine ⟨fun s hlow => congrArg _ (if_pos hlow), fun s hhigh hstartup => ?_⟩
  refine ⟨_, exec_startupEnd_of_starting (s.starting_iff.mpr ⟨hhigh, hstartup⟩), rfl, Memory.readWord_nil, fun hreset => ?_⟩
  have hnotices : s.endStartup.notices = NoticeUnit.reset.post ⟨.startupDone, .part, none, 0⟩ := by
    show s.notices.post _ = _
    rw [hreset]
  refine ⟨by rw [hnotices]; rfl, by rw [hnotices]; rfl, ?_⟩
  rw [State.globalStatusWord, hnotices]
  rfl

/-! ## What the window refuses by its state and by the code (R149, R150) -/

theorem ownerOf_of_unnamed {code : Nat} (h : code ∉ commandCodes) : ownerOf code = badCodeOwner := by
  unfold ownerOf
  split
  on_goal 27 => rfl
  all_goals exact absurd (by decide) h

theorem Instr.badCode_unnamed {code : Word} (h : (Instr.badCode code).wellFormed = true) : code.toNat ∉ commandCodes := by
  simpa [Instr.wellFormed] using h

/-- No command but SOFT_RESET writes its code. -/
theorem windowCode_ne_softReset {c : Instr} {code : Word} (hc : windowCode c = some code) (hwf : c.wellFormed = true) :
    code ≠ 0x70 := by
  cases c
  case badCode code =>
    cases hc
    rintro rfl
    exact absurd hwf (by decide)
  all_goals cases hc
  all_goals decide

theorem exec_eq_arrive {c : Instr} {code : Word} (hc : windowCode c = some code) (hwf : c.wellFormed = true) (s : State) :
    exec c s = .next (arrive code (ownerOf code.toNat) s) := by
  rw [exec_eq_writeCmd hc, State.writeCmd, if_neg (windowCode_ne_softReset hc hwf)]

/-- Settles O6: in STARTUP the window asks no owner, and the owner of a code that names no command answers BAD_CODE. -/
theorem windowRefusesByStateAndCode : Obligations.WindowRefusesByStateAndCode := by
  refine ⟨fun s c code hc hwf hhigh hstartup => ?_, fun s code hs hwf => ?_⟩
  · rw [exec_eq_arrive hc hwf, arrive_of_startup hhigh hstartup]
  · rw [exec_eq_arrive rfl hwf, ownerOf_of_unnamed (Instr.badCode_unnamed hwf)]
    exact next_arrive_of_unchanged hs rfl

/-! ## Refused commands (R150, R151) -/

/-- An owner writes no window register. -/
theorem Performs.win_eq {code : Nat} {s t : State} {a : Answer} (h : Performs code s t a) : t.win = s.win := by
  cases h with
  | flush r =>
    unfold State.flush
    dsimp only
    split
    · rw [State.report_frame, State.rezone_frame]; rfl
    · rw [State.rezone_frame]; rfl
  | marks r => rw [State.rezone_frame]; rfl
  | attach a r side => rw [State.attachAgent_frame]
  | detach a att => cases a <;> rfl
  | setParam n param value =>
    unfold State.putParam
    dsimp only
    split <;> rfl
  | startMaster n =>
    rw [State.startMaster, State.frameStart_frame]
    simp
  | leave n => rw [State.enterOff_frame]
  | swapInOff n => rw [State.swapInOff, State.exchange_frame, State.reserveSeats, State.mapSeats_frame]
  | swapLater n => rw [State.swapLater, State.win_setSmap, State.reserveSeats, State.mapSeats_frame]
  | cancel n => rw [State.dropSwap_frame]
  | go ch => rw [State.evaluate_frame]; rfl
  | refused | refusedSwap | answered | openRing | closeRing | policy | fill | clearStats | startFollower | stop
  | edit | setDma | halt | mask => rfl

/-- An answer that is neither DONE nor ACCEPTED stands with an unchanged state, and without result data but at
MAP_SWAP. -/
theorem Performs.refused_eq {code : Nat} {s t : State} {a : Answer} (h : Performs code s t a) :
    (a.code ≠ .done → a.code ≠ .accepted → t = s) ∧
    (a.code ≠ .done → code ≠ 0x45 → a.data0 = 0 ∧ a.data1 = 0) := by
  cases h
  case refused => exact ⟨fun _ _ => rfl, fun _ _ => ⟨rfl, rfl⟩⟩
  case refusedSwap hcode _ _ => exact ⟨fun _ _ => rfl, fun _ hne => absurd hcode hne⟩
  case stop | swapLater => exact ⟨fun _ hne => absurd rfl hne, fun _ _ => ⟨rfl, rfl⟩⟩
  all_goals exact ⟨fun hne => absurd rfl hne, fun hne => absurd rfl hne⟩

/-- The code of MAP_SWAP is written by MAP_SWAP alone. -/
theorem eq_mapSwap_of_code {c : Instr} {code : Word} (hc : windowCode c = some code) (hwf : c.wellFormed = true)
    (hcode : code.toNat = 0x45) : c = .mapSwap := by
  have hword : code = 0x45 := BitVec.eq_of_toNat_eq hcode
  subst hword
  cases c
  case mapSwap => rfl
  case badCode code =>
    cases hc
    exact absurd hwf (by decide)
  all_goals cases hc

/-- Settles O7: whatever an owner can do, `Performs` lists, and its refusals leave the state as it is. -/
theorem refusedCommandsChangeNoState : Obligations.RefusedCommandsChangeNoState := by
  intro s t c code hc hwf hs hexec
  rw [exec_eq_arrive hc hwf, arrive_of_accepts hs] at hexec
  have hperforms := performs_ownerOf code.toNat (s.setCmd code)
  generalize ownerOf code.toNat (s.setCmd code) = p at hexec hperforms
  obtain ⟨u, a⟩ := p
  cases hexec
  have hwin : u.win = (s.setCmd code).win := hperforms.win_eq
  obtain ⟨hsame, hdata⟩ := hperforms.refused_eq
  refine ⟨?_, fun hdone haccepted => ?_, fun hdone hswap => ?_⟩
  · simp only [State.answer, hwin]
    rfl
  · obtain rfl := hsame hdone haccepted
    rfl
  · exact hdata hdone fun hcode => hswap (eq_mapSwap_of_code hc hwf hcode)

/-! ## Strobes in reset (R170) -/

/-- Settles O9: every access first asks whether RESET_N is high; what a read shows then is a free value. -/
theorem strobesInResetAreNoAccess : Obligations.StrobesInResetAreNoAccess := by
  intro s hlow
  have hnone : ∀ f, s.unlessReset f = s := fun f => State.unlessReset_of_low f hlow
  refine ⟨fun c hc => ?_, exec_softReset_of_low hlow, fun address v ch dak0 dak1 => ?_, fun ch => ?_⟩
  · obtain ⟨code, hcode⟩ := Option.isSome_iff_exists.mp hc
    rw [exec_eq_writeCmd hcode, State.writeCmd, hnone, arrive_of_resetLow hlow, ite_self]
  · exact ⟨congrArg _ (hnone _), congrArg _ (hnone _), congrArg _ (hnone _), congrArg _ (hnone _), congrArg _ (hnone _),
      congrArg _ (hnone _), congrArg _ (hnone _), congrArg _ (hnone _), congrArg _ (hnone _),
      congrArg _ (if_pos hlow)⟩
  · refine ⟨Config.undefinedRead s.freeCount, congrArg _ (if_pos hlow), congrArg _ (if_pos hlow),
      fun dak0 dak1 hdak => congrArg _ ((if_pos hlow).trans (if_pos hdak))⟩

end Sys2Proof.Machine
end

section
/-! PROOFS. Registers without a side effect, the notice queue, flag writes, and level reports (R18, R127, R135, R162,
R164 to R171, R173). -/

namespace Sys2Proof.Machine

/-! ## Plain writes (R170, R171) -/

/-- A write of an address with no behaviour of its own stores an argument or does nothing. -/
theorem State.writeRegister_of_plain (s : State) {a : RegAddr} (v : Word) (h : a.toNat ∉ addressesWithOwnWrite) :
    s.writeRegister a v =
      if a = 1 then { s with win := { s.win with arg0 := v } }
      else if a = 2 then { s with win := { s.win with arg1 := v } }
      else if a = 3 then { s with win := { s.win with arg2 := v } }
      else if a = 4 then { s with win := { s.win with arg3 := v } }
      else s := by
  have hne : ∀ b : RegAddr, a ≠ b → a.toNat ≠ b.toNat := fun b hab hval => hab (BitVec.eq_of_toNat_eq hval)
  split
  · rename_i h1; subst h1; rfl
  split
  · rename_i h2; subst h2; rfl
  split
  · rename_i h3; subst h3; rfl
  split
  · rename_i h4; subst h4; rfl
  rename_i h1 h2 h3 h4
  unfold State.writeRegister
  split
  on_goal 17 => rfl
  case h_2 heq => exact absurd heq (hne 1 h1)
  case h_3 heq => exact absurd heq (hne 2 h2)
  case h_4 heq => exact absurd heq (hne 3 h3)
  case h_5 heq => exact absurd heq (hne 4 h4)
  all_goals
    rename_i heq
    rw [heq] at h
    exact absurd (by decide) h

/-! ## What the packed words show (R69, R121, R126, R127, R146, R164, R168) -/

theorem State.toNat_globalStatusWord {s : State} (h : s.notices.queue.length ≤ 32) :
    s.globalStatusWord.toNat =
      s.notices.queue.length + 128 * (!s.win.ready).toNat + 256 * s.notices.lost.toNat := by
  have hready := (!s.win.ready).toNat_lt
  have hlost := s.notices.lost.isLt
  simp only [State.globalStatusWord, boolNat_eq_toNat, BitVec.toNat_ofNat]
  omega

theorem NoticeKind.code_le (k : NoticeKind) : k.code ≤ 17 := by cases k <;> decide

theorem Source.code_lt (x : Source) : x.code < 32 := by
  cases x <;> simp only [Source.code] <;> omega

theorem Notice.toNat_headWord (x : Notice) :
    x.headWord.toNat = x.kind.code + 256 * x.source.code + 32768 * x.frame.isSome.toNat := by
  have hkind := x.kind.code_le
  have hsource := x.source.code_lt
  have hframe := x.frame.isSome.toNat_lt
  simp only [Notice.headWord, boolNat_eq_toNat, BitVec.toNat_ofNat]
  omega

theorem NoticeUnit.shown_of_empty {u : NoticeUnit} (h : u.queue = []) :
    u.headWord = 0 ∧ u.frameWord = 0 ∧ u.detailWord = 0 := by
  simp only [NoticeUnit.headWord, NoticeUnit.frameWord, NoticeUnit.detailWord, h, and_self]

theorem NoticeUnit.shown_of_cons {u : NoticeUnit} {x : Notice} {rest : List Notice} (h : u.queue = x :: rest) :
    u.headWord = x.headWord ∧ u.frameWord = x.frame.getD 0 ∧ u.detailWord.toNat = x.detail.toNat := by
  have hdetail := x.detail.isLt
  simp only [NoticeUnit.headWord, NoticeUnit.frameWord, NoticeUnit.detailWord, h, true_and, BitVec.toNat_ofNat]
  omega

theorem State.prLevelWord_of_unattached {s : State} (h : s.pr.attach = none) : s.prLevelWord = 0 := by
  simp only [State.prLevelWord, h]

theorem State.toNat_prLevelWord {s : State} {a : Attachment} (h : s.pr.attach = some a)
    (hl : (s.ring a.ring).level < 65536) : s.prLevelWord.toNat = (s.ring a.ring).level := by
  simp only [State.prLevelWord, h, BitVec.toNat_ofNat]
  omega

theorem State.pwLevelWord_of_unattached {s : State} (h : s.pw.attach = none) : s.pwLevelWord = 0 := by
  simp only [State.pwLevelWord, h]

theorem State.toNat_pwLevelWord {s : State} {a : Attachment} (h : s.pw.attach = some a)
    (hc : (s.ring a.ring).cap < 65536) : s.pwLevelWord.toNat = (s.ring a.ring).cap - (s.ring a.ring).level := by
  simp only [State.pwLevelWord, h, Ring.room, BitVec.toNat_ofNat]
  omega

theorem ReadPort.toNat_flagsWord (p : ReadPort) : p.flagsWord.toNat = p.underflow.toNat + 2 * p.stray.toNat := by
  have h1 := p.underflow.toNat_lt
  have h2 := p.stray.toNat_lt
  simp only [ReadPort.flagsWord, boolNat_eq_toNat, BitVec.toNat_ofNat]
  omega

theorem WritePort.toNat_flagsWord (p : WritePort) : p.flagsWord.toNat = p.overflow.toNat + 2 * p.stray.toNat := by
  have h1 := p.overflow.toNat_lt
  have h2 := p.stray.toNat_lt
  simp only [WritePort.flagsWord, boolNat_eq_toNat, BitVec.toNat_ofNat]
  omega

theorem ChanState.code_lt (x : ChanState) : x.code < 3 := by cases x <;> decide

theorem Channel.toNat_statusWord {c : Channel} (h : c.grant ≤ 16) :
    c.statusWord.toNat = c.state.code + 4 * (decide (0 < c.grant)).toNat + 16 * c.grant + 32768 * c.stray.toNat := by
  have hstate := c.state.code_lt
  have hrequest := (decide (0 < c.grant)).toNat_lt
  have hstray := c.stray.toNat_lt
  simp only [Channel.statusWord, Channel.request, boolNat_eq_toNat, BitVec.toNat_ofNat]
  omega

theorem LaneState.code_lt (x : LaneState) : x.code < 5 := by cases x <;> decide
theorem BankName.code_lt (b : BankName) : b.code < 2 := by cases b <;> decide
theorem LossCause.code_lt (x : LossCause) : x.code < 4 := by cases x <;> decide

theorem State.toNat_laneStatusWord (s : State) (n : LaneId) :
    (s.laneStatusWord n).toNat = (s.lane n).state.code + 16 * (s.smap n).live.code
      + 32 * (s.smap n).swapPending.toNat + 256 * (s.lane n).lastCause.code := by
  have hstate := (s.lane n).state.code_lt
  have hlive := (s.smap n).live.code_lt
  have hpending := (s.smap n).swapPending.toNat_lt
  have hcause := (s.lane n).lastCause.code_lt
  simp only [State.laneStatusWord, boolNat_eq_toNat, BitVec.toNat_ofNat]
  omega

/-! ## The registers of channels and lanes by number (Table 10-1) -/

theorem chanId_cases (ch : ChanId) : ch = 0 ∨ ch = 1 := by
  revert ch
  decide

theorem State.readRegister_chan (s : State) (ch : ChanId) :
    s.readRegister (BitVec.ofNat 7 (0x30 + 4 * ch.val + 1)) = s.dataHiWord ch ∧
    s.readRegister (BitVec.ofNat 7 (0x30 + 4 * ch.val + 2)) = (s.chan ch).statusWord ∧
    s.readRegister (BitVec.ofNat 7 (0x30 + 4 * ch.val + 3)) = (s.chan ch).tally := by
  rcases chanId_cases ch with rfl | rfl
  · exact ⟨rfl, rfl, rfl⟩
  · exact ⟨rfl, rfl, rfl⟩

theorem State.readRegister_lane (s : State) (n : LaneId) :
    s.readRegister (BitVec.ofNat 7 (0x40 + 2 * n.val + 0)) = s.laneStatusWord n ∧
    s.readRegister (BitVec.ofNat 7 (0x40 + 2 * n.val + 1)) = (s.lane n).frameCount := by
  have hlane : ∀ m : LaneId, m = 0 ∨ m = 1 ∨ m = 2 ∨ m = 3 := by decide
  rcases hlane n with rfl | rfl | rfl | rfl
  · exact ⟨rfl, rfl⟩
  · exact ⟨rfl, rfl⟩
  · exact ⟨rfl, rfl⟩
  · exact ⟨rfl, rfl⟩

/-- The addresses that show nothing to a read without a side effect. -/
theorem State.readRegister_of_unassigned (s : State) {a : RegAddr}
    (h : a.toNat ∈ [0x13, 0x24] ∨ (a.toNat ∉ List.range 9 ∧ a.toNat ∉ List.range' 0x10 3 ∧
      a.toNat ∉ List.range' 0x20 8 ∧ a.toNat ∉ List.range' 0x30 8 ∧ a.toNat ∉ List.range' 0x40 8)) :
    s.readRegister a = 0 := by
  unfold State.readRegister
  split
  on_goal 33 => rfl
  all_goals
    rename_i heq
    rw [heq] at h
    exact absurd h (by decide)

/-- Settles O8: the write by cases of the address, and each register by the lemma on the word it shows. -/
theorem plainRegisterWritesStoreOrAreIgnored : Obligations.PlainRegisterWritesStoreOrAreIgnored := by
  refine ⟨fun s a v hhigh hwf => ?writes,
    fun s => ⟨rfl, rfl, rfl, rfl, rfl, rfl, rfl, rfl, State.toNat_globalStatusWord, NoticeUnit.shown_of_empty,
      fun x rest hq => ?head, rfl, State.prLevelWord_of_unattached, fun _ => State.toNat_prLevelWord,
      s.pr.toNat_flagsWord, rfl, State.pwLevelWord_of_unattached, fun _ => State.toNat_pwLevelWord,
      s.pw.toNat_flagsWord⟩,
    fun s ch => ?channels, fun s n => ?lanes, fun s a h => s.readRegister_of_unassigned h,
    rfl, fun _ => rfl, rfl, rfl, fun _ => rfl, rfl, fun _ => rfl, rfl, rfl, rfl, rfl, rfl⟩
  case writes =>
    have hplain : a.toNat ∉ addressesWithOwnWrite := by simpa [Instr.wellFormed] using hwf
    rw [← s.writeRegister_of_plain v hplain]
    exact congrArg _ (State.unlessReset_of_high _ hhigh)
  case head =>
    obtain ⟨hhead, hframe, hdetail⟩ := NoticeUnit.shown_of_cons hq
    exact ⟨(congrArg BitVec.toNat hhead).trans x.toNat_headWord, hframe, hdetail⟩
  case channels =>
    obtain ⟨hdata, hstatus, htally⟩ := s.readRegister_chan ch
    dsimp only
    rw [hdata, hstatus, htally]
    refine ⟨fun hform => ?_, fun hform hnone => ?_, fun a hform ha => ?_, Channel.toNat_statusWord, rfl⟩
    · simp only [State.dataHiWord, hform]
    · simp only [State.dataHiWord, hform, hnone]
    · simp only [State.dataHiWord, hform, ha]
      cases a.side with
      | producer => simp
      | consumer => simp
  case lanes =>
    obtain ⟨hstatus, hframe⟩ := s.readRegister_lane n
    exact ⟨(congrArg BitVec.toNat hstatus).trans (s.toNat_laneStatusWord n), hframe⟩

/-! ## The notice queue (R162, R165, R166, R167) -/

theorem satIncByte_eq (b : Byte) : satIncByte b = BitVec.ofNat 8 (min (b.toNat + 1) 255) := by
  revert b
  decide

theorem NoticeUnit.post_of_disabled {u : NoticeUnit} {x : Notice} (h : u.mask.getLsbD x.kind.code = false) :
    u.post x = u := by
  simp [NoticeUnit.post, h]

theorem NoticeUnit.post_of_room {u : NoticeUnit} {x : Notice} (h : u.mask.getLsbD x.kind.code = true)
    (hq : u.queue.length < Config.queueDepth) : u.post x = { u with queue := u.queue ++ [x] } := by
  simp [NoticeUnit.post, h, hq]

theorem NoticeUnit.post_of_full {u : NoticeUnit} {x : Notice} (h : u.mask.getLsbD x.kind.code = true)
    (hq : Config.queueDepth ≤ u.queue.length) : u.post x = { u with lost := satIncByte u.lost } := by
  simp [NoticeUnit.post, h, Nat.not_lt.mpr hq]

theorem NoticeUnit.interrupt_eq (u : NoticeUnit) : u.interrupt = decide (u.queue ≠ []) := by
  cases hq : u.queue <;> simp [NoticeUnit.interrupt, hq]

theorem NoticeUnit.pop_of_empty {u : NoticeUnit} (h : u.queue = []) : u.pop = u := by
  simp only [NoticeUnit.pop, h]

/-- The oldest record goes; a count of lost records takes its place in the queue. -/
theorem NoticeUnit.pop_of_cons {u : NoticeUnit} {x : Notice} {rest : List Notice} (h : u.queue = x :: rest) :
    u.pop = { u with
      queue := if u.lost = 0 then rest else rest ++ [⟨.noticeLost, .part, none, u.lost⟩], lost := 0 } := by
  simp only [NoticeUnit.pop, h, NoticeUnit.appendLost]
  split
  · rename_i hlost
    rw [← hlost]
  · rfl

theorem exec_noticePop_of_high {s : State} (v : Word) (h : s.resetLow = false) :
    exec (.noticePop v) s = .next s.popNotice := congrArg _ (State.unlessReset_of_high _ h)

/-- Settles O35: a post by the mask and the room in the queue, a pop by the queue's first record. -/
theorem postsAndPopsOfTheNoticeQueue : Obligations.PostsAndPopsOfTheNoticeQueue := by
  refine ⟨fun u x => ⟨NoticeUnit.post_of_disabled, fun hmask hq => ?room, fun hmask hq => ?full⟩,
    fun s v hhigh => ⟨fun hempty => ?empty, fun x rest hq => ?pop⟩⟩
  case room =>
    have hroom : u.queue.length < Config.queueDepth := Nat.lt_succ_of_le hq
    rw [NoticeUnit.post_of_room hmask hroom, NoticeUnit.interrupt_eq]
    exact ⟨rfl, by simp⟩
  case full => rw [NoticeUnit.post_of_full hmask hq, satIncByte_eq]
  case empty => rw [exec_noticePop_of_high v hhigh, State.popNotice, NoticeUnit.pop_of_empty hempty]
  case pop =>
    refine ⟨_, exec_noticePop_of_high v hhigh, ?_, NoticeUnit.interrupt_eq _⟩
    rw [State.popNotice, NoticeUnit.pop_of_cons hq]

/-! ## Flags (R127, R144) and the end of a gap (R173) -/

/-- Settles O38: each write is the update that its flag register defines. -/
theorem flagWritesClearTheFlagsWritten : Obligations.FlagWritesClearTheFlagsWritten := fun _ _ _ hhigh =>
  ⟨congrArg _ (State.unlessReset_of_high _ hhigh), congrArg _ (State.unlessReset_of_high _ hhigh),
    congrArg _ (State.unlessReset_of_high _ hhigh)⟩

/-- Settles O43: with no gap running the pin is the request line. -/
theorem drqFollowsTheGrantAfterTheGap : Obligations.DrqFollowsTheGrantAfterTheGap := fun s ch =>
  ⟨_, rfl, rfl, by simp [Channel.drqPin, Channel.request]⟩

/-! ## Level reports (R18, R135) -/

theorem State.chan_evaluate_of_attached {s : State} {ch : ChanId} {a : Attachment} (h : (s.chan ch).attach = some a) :
    (s.evaluate ch).chan ch =
      if (s.chan ch).state = .active ∧ (s.chan ch).grant = 0 ∧ (s.chan ch).want ≤ (s.ring a.ring).available a.side
      then { s.chan ch with grant := (s.chan ch).want } else s.chan ch := by
  simp only [State.evaluate, h]
  split
  · rw [State.chan_setChan_self]
  · rfl

/-- What a report to a channel records: an evaluation, where the channel holds a seat of the ring. -/
theorem State.chan_reportTo_self (s : State) (r : RingId) (ch : ChanId) :
    (s.reportTo r ch).chan ch = if s.seatedAt ch r then (s.evaluate ch).chan ch else s.chan ch := by
  simp only [State.reportTo]
  split <;> rfl

theorem State.chan_reportTo_of_ne (s : State) (r : RingId) {ch d : ChanId} (h : d ≠ ch) :
    (s.reportTo r ch).chan d = s.chan d := by
  simp only [State.reportTo]
  split
  · exact s.chan_evaluate_of_ne h
  · rfl

theorem State.seatedAt_congr {s t : State} {ch : ChanId} (h : t.chan ch = s.chan ch) (r : RingId) :
    t.seatedAt ch r = s.seatedAt ch r := by
  simp only [State.seatedAt, h]

theorem State.chan_evaluate_congr {s t : State} {ch : ChanId} (h : t.chan ch = s.chan ch) (hr : t.rings = s.rings) :
    (t.evaluate ch).chan ch = (s.evaluate ch).chan ch := by
  have hring : ∀ r, t.ring r = s.ring r := fun r => congrArg (·[r.val]) hr
  cases ha : (s.chan ch).attach with
  | none => simp only [State.evaluate, h, ha]
  | some a =>
    rw [State.chan_evaluate_of_attached ha, State.chan_evaluate_of_attached (h ▸ ha), h, hring]

/-- A level report is an evaluation by each channel that holds a seat of the ring (R18). -/
theorem State.chan_report_self (s : State) (r : RingId) (ch : ChanId) :
    (s.report r).chan ch = if s.seatedAt ch r then (s.evaluate ch).chan ch else s.chan ch := by
  rw [State.report]
  rcases chanId_cases ch with rfl | rfl
  · rw [State.chan_reportTo_of_ne _ r (by decide), State.chan_reportTo_self]
  · have hsame : (s.reportTo r 0).chan 1 = s.chan 1 := s.chan_reportTo_of_ne r (by decide)
    have hrings : (s.reportTo r 0).rings = s.rings := by rw [State.reportTo_frame]
    rw [State.chan_reportTo_self, State.seatedAt_congr hsame, State.chan_evaluate_congr hsame hrings, hsame]

theorem State.seatedAt_of_unattached {s : State} {ch : ChanId} {r : RingId}
    (h : ∀ a, (s.chan ch).attach = some a → a.ring ≠ r) : s.seatedAt ch r = false := by
  simp only [State.seatedAt]
  split
  · rfl
  · rename_i a ha
    simpa using h a ha

theorem State.seatedAt_of_attached {s : State} {ch : ChanId} {a : Attachment} (h : (s.chan ch).attach = some a) :
    s.seatedAt ch a.ring = true := by
  simp [State.seatedAt, h]

theorem State.chan_report_of_unattached {s : State} {r : RingId} {ch : ChanId}
    (h : ∀ a, (s.chan ch).attach = some a → a.ring ≠ r) : (s.report r).chan ch = s.chan ch := by
  rw [State.chan_report_self, State.seatedAt_of_unattached h]
  rfl

theorem State.chan_report_of_attached {s : State} {ch : ChanId} {a : Attachment} (h : (s.chan ch).attach = some a) :
    (s.report a.ring).chan ch =
      if (s.chan ch).state = .active ∧ (s.chan ch).grant = 0 ∧ (s.chan ch).want ≤ (s.ring a.ring).available a.side
      then { s.chan ch with grant := (s.chan ch).want } else s.chan ch := by
  rw [State.chan_report_self, State.seatedAt_of_attached h, State.chan_evaluate_of_attached h]
  rfl

theorem Channel.want_eq (c : Channel) :
    c.want = match c.mode with
      | .free => c.quantum
      | .count => min c.quantum c.tally.toNat := rfl

theorem Ring.available_eq (g : Ring) (side : Side) :
    g.available side = match side with
      | .consumer => g.level
      | .producer => g.cap - g.level := by
  cases side <;> rfl

/-- Settles O20: a report is an evaluation at the channels that hold a seat of the ring. -/
theorem levelReportsEvaluateRequests : Obligations.LevelReportsEvaluateRequests := by
  intro s r ch
  refine ⟨s.report_frame r, State.chan_report_of_unattached, fun a ha hr => ?_⟩
  subst hr
  have hreport := State.chan_report_of_attached ha
  rw [Channel.want_eq, Ring.available_eq] at hreport
  exact hreport

end Sys2Proof.Machine
end

section
/-! PROOFS. Claims at the ring table: which cells a ring holds after an append, a removal and a displacement, and what a
claim changes besides (R14 to R23). -/

namespace Sys2Proof.Machine

/-! ## The cells of a ring as a list (R3, R13) -/

theorem State.cells_of_empty {s : State} {r : RingId} (h : (s.ring r).level = 0) : s.cells r = [] := by
  simp [State.cells, h]

theorem State.cells_succ {s : State} {r : RingId} {k : Nat} (h : (s.ring r).level = k + 1) :
    s.cells r = s.peekCell r 0 :: (List.range k).map fun i => s.peekCell r (i + 1) := by
  simp [State.cells, h, List.range_succ_eq_map]

theorem State.cells_congr {s t : State} {r : RingId} (hlevel : (t.ring r).level = (s.ring r).level)
    (h : ∀ i, i < (s.ring r).level → t.peekCell r i = s.peekCell r i) : t.cells r = s.cells r := by
  simp only [State.cells, hlevel]
  exact List.map_congr_left fun i hi => h i (List.mem_range.mp hi)

/-- One cell more, behind the others. -/
theorem State.cells_append {s t : State} {r : RingId} {c : Cell} (hlevel : (t.ring r).level = (s.ring r).level + 1)
    (hold : ∀ i, i < (s.ring r).level → t.peekCell r i = s.peekCell r i) (hnew : t.peekCell r (s.ring r).level = c) :
    t.cells r = s.cells r ++ [c] := by
  simp only [State.cells, hlevel, List.range_succ, List.map_append, List.map_cons, List.map_nil, hnew]
  congr 1
  exact List.map_congr_left fun i hi => hold i (List.mem_range.mp hi)

/-- One cell less, the first. -/
theorem State.cells_cons {s t : State} {r : RingId} (hlevel : (s.ring r).level = (t.ring r).level + 1)
    (h : ∀ i, i < (t.ring r).level → t.peekCell r i = s.peekCell r (i + 1)) :
    s.cells r = s.peekCell r 0 :: t.cells r := by
  rw [State.cells_succ hlevel]
  congr 1
  exact List.map_congr_left fun i hi => (h i (List.mem_range.mp hi)).symm

/-- The first cell goes and another stands last. -/
theorem State.cells_displaced {s t : State} {r : RingId} {c : Cell} {k : Nat} (hs : (s.ring r).level = k + 1)
    (ht : (t.ring r).level = k + 1) (hold : ∀ i, i < k → t.peekCell r i = s.peekCell r (i + 1))
    (hnew : t.peekCell r k = c) : t.cells r = (s.cells r).tail ++ [c] := by
  rw [State.cells_succ hs]
  simp only [State.cells, ht, List.range_succ, List.map_append, List.map_cons, List.map_nil, hnew, List.tail_cons]
  congr 1
  exact List.map_congr_left fun i hi => hold i (List.mem_range.mp hi)

/-! ## Where cells stand (R1, R5) -/

/-- A cell of an OPEN ring stands inside the ring's region. -/
theorem Ring.Fits.cellAddr_le {g : Ring} (h : g.Fits) {i : Nat} (hi : i < g.cap) :
    4 * g.base ≤ cellAddr g.base g.width i ∧
    cellAddr g.base g.width i + g.width / 8 ≤ 4 * (g.base + g.length) := by
  have hcap := h.cap
  rw [cellAddr_eq _ _ h.width]
  rcases h.width with hw | hw | hw <;> (rw [hw] at hcap ⊢; omega)

theorem Ring.Fits.cellAddr_le_memBytes {g : Ring} (h : g.Fits) {i : Nat} (hi : i < g.cap) :
    cellAddr g.base g.width i + g.width / 8 ≤ Config.memBytes := by
  have hregion := h.region
  have hcell := (h.cellAddr_le hi).2
  simp only [Config.memWords, Config.memBytes] at hregion ⊢
  omega

/-- Within fewer than C places round the ring no index comes twice. -/
theorem index_ne {cap head i j : Nat} (hij : i < j) (hj : j < i + cap) : (head + i) % cap ≠ (head + j) % cap := by
  intro h
  have hdvd : cap ∣ j - i := by
    have := (Nat.modEq_iff_dvd' (by omega : head + i ≤ head + j)).mp h
    have hsub : head + j - (head + i) = j - i := by omega
    rwa [hsub] at this
  have := Nat.le_of_dvd (by omega) hdvd
  omega

/-- The same place of the same region, its bytes unchanged. -/
theorem State.peekCell_congr {s t : State} {r : RingId} {i j : Nat} (hbase : (t.ring r).base = (s.ring r).base)
    (hwidth : (t.ring r).width = (s.ring r).width)
    (hindex : ((t.ring r).head + i) % (t.ring r).cap = ((s.ring r).head + j) % (s.ring r).cap)
    (hread : Memory.readCell t.mem (s.ring r).base (s.ring r).width (((s.ring r).head + j) % (s.ring r).cap) =
      Memory.readCell s.mem (s.ring r).base (s.ring r).width (((s.ring r).head + j) % (s.ring r).cap)) :
    t.peekCell r i = s.peekCell r j := by
  simp only [State.peekCell, hbase, hwidth, hindex, hread]

/-- A write at an index of one ring leaves the cells of every other ring. -/
theorem State.cells_of_other {s t : State} {r q : RingId} {i : Nat} {c : Cell} (hrings : s.RingsOk)
    (hregions : s.RegionsDisjoint) (ho : (s.ring r).state = .opened) (hi : i < (s.ring r).cap)
    (hmem : t.mem = Memory.writeCell s.mem (s.ring r).base (s.ring r).width i c) (hne : q ≠ r)
    (hq : t.ring q = s.ring q) : t.cells q = s.cells q := by
  cases hstate : (s.ring q).state with
  | closed =>
    have hlevel : (s.ring q).level = 0 := by rw [(hrings q).1 hstate]; rfl
    rw [State.cells_of_empty hlevel, State.cells_of_empty (hq ▸ hlevel)]
  | opened =>
    have hfits := (hrings r).fits ho
    have hfitsq := (hrings q).fits hstate
    refine State.cells_congr (by rw [hq]) fun j _ => State.peekCell_congr (by rw [hq]) (by rw [hq]) (by rw [hq]) ?_
    rw [hmem]
    apply Memory.readCell_writeCell_of_disjoint
    have hr := hfits.cellAddr_le hi
    have hcell := hfitsq.cellAddr_le (Nat.mod_lt ((s.ring q).head + j) hfitsq.cap_pos)
    have := hregions r q (Ne.symm hne) ho hstate
    omega

theorem State.cells_of_same {s t : State} {q : RingId} (hmem : t.mem = s.mem) (hq : t.ring q = s.ring q) :
    t.cells q = s.cells q :=
  State.cells_congr (by rw [hq]) fun j _ => by simp only [State.peekCell, hmem, hq]

/-! ## What a claim answers (R14 to R17, R20) -/

theorem State.appendClaim_of_room {s : State} {r : RingId} (c : Cell) (who : Appender) (ho : (s.ring r).state = .opened)
    (hroom : (s.ring r).level < (s.ring r).cap) : s.appendClaim r c who = (s.storeCell r c, true) := by
  simp [State.appendClaim, ho, hroom]

theorem State.appendClaim_host_of_full {s : State} {r : RingId} (c : Cell) (ho : (s.ring r).state = .opened)
    (hfull : (s.ring r).level = (s.ring r).cap) : s.appendClaim r c .host = (s.primeFull r, false) := by
  simp [State.appendClaim, ho, hfull]

theorem State.appendClaim_lane_of_dropNew {s : State} {r : RingId} (c : Cell) (n : LaneId)
    (ho : (s.ring r).state = .opened) (hfull : (s.ring r).level = (s.ring r).cap)
    (hpolicy : (s.ring r).fullPolicy = .dropNew) :
    s.appendClaim r c (.lane n) = ((s.primeFull r).countOverrun r n, false) := by
  simp [State.appendClaim, ho, hfull, hpolicy]

theorem State.appendClaim_lane_of_dropOldest {s : State} {r : RingId} (c : Cell) (n : LaneId)
    (ho : (s.ring r).state = .opened) (hfull : (s.ring r).level = (s.ring r).cap)
    (hpolicy : (s.ring r).fullPolicy = .dropOldest) :
    s.appendClaim r c (.lane n) = (((s.displaceCell r c).primeFull r).countOverrun r n, false) := by
  simp [State.appendClaim, ho, hfull, hpolicy]

theorem State.removeForHost_of_cells {s : State} {r : RingId} (ho : (s.ring r).state = .opened)
    (hcells : 0 < (s.ring r).level) : s.removeForHost r = (s.removeCell r, s.headCell r, true) := by
  simp [State.removeForHost, ho, hcells]

theorem State.removeForHost_of_empty {s : State} {r : RingId} (ho : (s.ring r).state = .opened)
    (hempty : (s.ring r).level = 0) : s.removeForHost r = (s, (s.ring r).fill, false) := by
  simp [State.removeForHost, ho, hempty]

theorem Ring.heldBack_eq_false {g : Ring} (h : g.prime = false ∨ g.primed = true) : g.heldBack = false := by
  rcases h with h | h
  · simp [Ring.heldBack, h]
  · simp [Ring.heldBack, h]

theorem State.removeForLane_of_heldBack {s : State} {r : RingId} (n : LaneId) (ho : (s.ring r).state = .opened)
    (hheld : (s.ring r).heldBack = true) : s.removeForLane r n = (s, (s.ring r).substitute) := by
  simp [State.removeForLane, ho, hheld]

theorem State.removeForLane_of_cells {s : State} {r : RingId} (n : LaneId) (ho : (s.ring r).state = .opened)
    (hheld : (s.ring r).heldBack = false) (hcells : 0 < (s.ring r).level) :
    s.removeForLane r n = (s.removeCell r, s.headCell r) := by
  simp [State.removeForLane, ho, hheld, hcells]

theorem State.removeForLane_of_empty {s : State} {r : RingId} (n : LaneId) (ho : (s.ring r).state = .opened)
    (hheld : (s.ring r).heldBack = false) (hempty : (s.ring r).level = 0) :
    s.removeForLane r n = (s.countUnderrun r n, (s.ring r).substitute) := by
  simp [State.removeForLane, ho, hheld, hempty]

/-! ## Stored appends and removals (R14, R16) -/

theorem State.notices_storeCell (s : State) (r : RingId) (c : Cell) :
    (s.storeCell r c).notices =
      if (s.ring r).stored.zoneNow = (s.ring r).zone then s.notices
      else match (s.ring r).stored.zoneNow with
        | .low => s.notices.post ⟨.ringLow, .ring r, none, 0⟩
        | .high => s.notices.post ⟨.ringHigh, .ring r, none, 0⟩
        | .mid => s.notices := by
  simp only [State.storeCell]
  rw [State.notices_report, State.notices_rezone, State.ring_setRing_self]
  rfl

theorem State.notices_removeCell (s : State) (r : RingId) :
    (s.removeCell r).notices =
      if ((s.ring r).removed (s.headCell r)).zoneNow = (s.ring r).zone then s.notices
      else match ((s.ring r).removed (s.headCell r)).zoneNow with
        | .low => s.notices.post ⟨.ringLow, .ring r, none, 0⟩
        | .high => s.notices.post ⟨.ringHigh, .ring r, none, 0⟩
        | .mid => s.notices := by
  simp only [State.removeCell]
  rw [State.notices_report, State.notices_rezone, State.ring_setRing_self]
  rfl

/-- The channels after a stored append are those of a level report on the new records. -/
theorem State.chans_storeCell (s : State) (r : RingId) (c : Cell) :
    (s.storeCell r c).chans = ({ s with rings := (s.storeCell r c).rings }.report r).chans := by
  simp only [State.storeCell]
  refine State.chans_report_congr ?_ ?_ r
  · rw [State.rings_report]
  · rw [State.chans_rezone]
    rfl

theorem State.chans_removeCell (s : State) (r : RingId) :
    (s.removeCell r).chans = ({ s with rings := (s.removeCell r).rings }.report r).chans := by
  simp only [State.removeCell]
  refine State.chans_report_congr ?_ ?_ r
  · rw [State.rings_report]
  · rw [State.chans_rezone]
    rfl

theorem State.mem_storeCell (s : State) (r : RingId) (c : Cell) :
    (s.storeCell r c).mem = Memory.writeCell s.mem (s.ring r).base (s.ring r).width (s.ring r).tail c := by
  rw [State.storeCell_frame]

theorem State.mem_removeCell (s : State) (r : RingId) : (s.removeCell r).mem = s.mem := by
  rw [State.removeCell_frame]

/-- A stored cell stands behind the cells of the ring (R3, R14). -/
theorem State.cells_storeCell {s : State} {r : RingId} (c : Cell) (hm : s.MemoryOk) (hfits : (s.ring r).Fits)
    (hroom : (s.ring r).level < (s.ring r).cap) :
    (s.storeCell r c).cells r = s.cells r ++ [lowBits (s.ring r).width c] := by
  have hself := s.ring_storeCell_self r c
  refine State.cells_append (by rw [hself]; rfl) (fun i hi => ?_) ?_
  · refine State.peekCell_congr (by rw [hself]; rfl) (by rw [hself]; rfl) (by rw [hself]; rfl) ?_
    rw [State.mem_storeCell]
    apply Memory.readCell_writeCell_of_ne _ _ hfits.width
    rw [hfits.tail]
    exact index_ne hi (by omega)
  · have hindex : ((s.ring r).head + (s.ring r).level) % (s.ring r).cap = (s.ring r).tail := hfits.tail.symm
    simp only [State.peekCell, hself, State.mem_storeCell]
    show Memory.readCell _ (s.ring r).base (s.ring r).width (((s.ring r).head + (s.ring r).level) % (s.ring r).cap) = _
    rw [hindex]
    exact Memory.readCell_writeCell_self c hm hfits.width (hfits.cellAddr_le_memBytes hfits.tail_lt)

theorem State.peekCell_zero {s : State} {r : RingId} (hfits : (s.ring r).Fits) : s.peekCell r 0 = s.headCell r := by
  simp only [State.peekCell, State.headCell, Nat.add_zero, Nat.mod_eq_of_lt hfits.head]

/-- A removal takes the first of the ring's cells (R3, R16). -/
theorem State.cells_removeCell {s : State} {r : RingId} (hfits : (s.ring r).Fits) (hcells : 0 < (s.ring r).level) :
    s.cells r = s.headCell r :: (s.removeCell r).cells r := by
  have hself := s.ring_removeCell_self r
  rw [← State.peekCell_zero hfits]
  refine State.cells_cons ?_ fun i _ => ?_
  · rw [hself]
    show _ = (s.ring r).level - 1 + 1
    omega
  · refine State.peekCell_congr (by rw [hself]; rfl) (by rw [hself]; rfl) ?_ (by rw [State.mem_removeCell])
    rw [hself]
    show ((s.ring r).next (s.ring r).head + i) % (s.ring r).cap = _
    rw [Ring.next_eq_mod hfits.head, Nat.mod_add_mod, Nat.add_assoc, Nat.add_comm 1 i]

/-- Settles O16: with room a claim is `storeCell`, whose cells, record, memory, channels and notices the lemmas above
give. -/
theorem storedAppendPutsTheCellLast : Obligations.StoredAppendPutsTheCellLast := by
  intro s r c who hm hrings hregions ho hroom
  have hfits := (hrings r).fits ho
  refine ⟨_, State.appendClaim_of_room c who ho hroom, State.cells_storeCell c hm hfits hroom, fun q hq => ⟨?_, ?_⟩,
    s.ring_storeCell_self r c, ?_⟩
  · exact s.ring_storeCell_of_ne c hq
  · exact State.cells_of_other hrings hregions ho hfits.tail_lt (s.mem_storeCell r c) hq (s.ring_storeCell_of_ne c hq)
  · have hframe := s.storeCell_frame r c
    rw [State.notices_storeCell, State.chans_storeCell] at hframe
    exact hframe

/-- Settles O17: with cells a removal is `removeCell`, for a host agent and for a lane not held back alike. -/
theorem removalTakesTheFirstCell : Obligations.RemovalTakesTheFirstCell := by
  intro s r n hrings ho hcells
  have hfits := (hrings r).fits ho
  refine ⟨_, _, State.removeForHost_of_cells ho hcells, fun hprime => ?_, State.cells_removeCell hfits hcells,
    fun q hq => ⟨?_, ?_⟩, s.ring_removeCell_self r, ?_⟩
  · exact State.removeForLane_of_cells n ho (Ring.heldBack_eq_false hprime) hcells
  · exact s.ring_removeCell_of_ne hq
  · exact State.cells_of_same (s.mem_removeCell r) (s.ring_removeCell_of_ne hq)
  · have hframe := s.removeCell_frame r
    rw [State.notices_removeCell, State.chans_removeCell] at hframe
    exact hframe

/-! ## Claims that find no cell or no room (R15, R17, R20 to R23) -/

theorem satIncWord_eq (c : Word) : satIncWord c = BitVec.ofNat 16 (min (c.toNat + 1) 65535) := by
  have hlt := c.isLt
  unfold satIncWord
  split
  · rename_i h; subst h; rfl
  · rename_i h
    have hne : c.toNat ≠ 65535 := fun hval => h (BitVec.eq_of_toNat_eq hval)
    apply BitVec.eq_of_toNat_eq
    rw [Nat.min_eq_left (by omega), BitVec.toNat_add, BitVec.toNat_ofNat]
    rfl

theorem State.ring_countUnderrun_self (s : State) (r : RingId) (n : LaneId) :
    (s.countUnderrun r n).ring r = { s.ring r with
      underrunEpisode := true, primed := if (s.ring r).underrunEpisode then (s.ring r).primed else false,
      underrunCount := satIncWord (s.ring r).underrunCount } := by
  simp only [State.countUnderrun]
  split
  · rename_i h; simp [h]
  · simp

theorem State.notices_countUnderrun (s : State) (r : RingId) (n : LaneId) :
    (s.countUnderrun r n).notices =
      if (s.ring r).underrunEpisode then s.notices
      else s.notices.post ⟨.ringUnderrun, .ring r, some (s.lane n).frameCount, BitVec.ofNat 8 n.val⟩ := by
  simp only [State.countUnderrun]
  split <;> rfl

theorem Ring.substitute_eq (g : Ring) :
    g.substitute = match g.emptyPolicy with
      | .fill => g.fill
      | .repeatLast => g.lastOut := rfl

/-- Settles O18: the branches of the two remove claims that remove no cell. -/
theorem removeClaimsThatRemoveNothing : Obligations.RemoveClaimsThatRemoveNothing := by
  intro s r n ho
  refine ⟨fun hprime hprimed => ?_, State.removeForHost_of_empty ho, fun hempty hprime => ?_⟩
  · exact State.removeForLane_of_heldBack n ho (by simp [Ring.heldBack, hprime, hprimed])
  · refine ⟨_, State.removeForLane_of_empty n ho (Ring.heldBack_eq_false hprime) hempty,
      fun q hq => s.ring_countUnderrun_of_ne n hq, ?_, ?_⟩
    · have hframe := s.countUnderrun_frame r n
      rw [State.notices_countUnderrun] at hframe
      exact hframe
    · rw [State.ring_countUnderrun_self, satIncWord_eq]

theorem State.ring_countOverrun_self (s : State) (r : RingId) (n : LaneId) :
    (s.countOverrun r n).ring r =
      { s.ring r with overrunCount := satIncWord (s.ring r).overrunCount, overrunEpisode := true } := by
  simp only [State.countOverrun]
  split <;> simp

theorem State.notices_countOverrun (s : State) (r : RingId) (n : LaneId) :
    (s.countOverrun r n).notices =
      if (s.ring r).overrunEpisode then s.notices
      else s.notices.post ⟨.ringOverrun, .ring r, some (s.lane n).frameCount, BitVec.ofNat 8 n.val⟩ := by
  simp only [State.countOverrun]
  split <;> rfl

theorem State.mem_countOverrun (s : State) (r : RingId) (n : LaneId) : (s.countOverrun r n).mem = s.mem := by
  rw [State.countOverrun_frame]

@[simp] theorem State.ring_primeFull_self (s : State) (r : RingId) :
    (s.primeFull r).ring r =
      { s.ring r with primed := (s.ring r).primed || decide ((s.ring r).highMark ≤ (s.ring r).level) } := by
  simp [State.primeFull]

@[simp] theorem State.ring_primeFull_of_ne (s : State) {r q : RingId} (h : q ≠ r) : (s.primeFull r).ring q = s.ring q := by
  simp [State.primeFull, h]

/-- A full ring has reached its high mark, so every append claim on it primes it. -/
theorem State.ring_primeFull_of_full {s : State} {r : RingId} (hfits : (s.ring r).Fits)
    (hfull : (s.ring r).level = (s.ring r).cap) : (s.primeFull r).ring r = { s.ring r with primed := true } := by
  have hhigh := hfits.high
  rw [← hfull] at hhigh
  simp [hhigh]

@[simp] theorem State.ring_displaceCell_self (s : State) (r : RingId) (c : Cell) :
    (s.displaceCell r c).ring r =
      { s.ring r with head := (s.ring r).next (s.ring r).head, tail := (s.ring r).next (s.ring r).tail } := by
  simp [State.displaceCell]

@[simp] theorem State.ring_displaceCell_of_ne (s : State) {r q : RingId} (c : Cell) (h : q ≠ r) :
    (s.displaceCell r c).ring q = s.ring q := by
  simp [State.displaceCell, h]

/-- On a full ring the new cell takes the place of the first and stands last (R15). -/
theorem State.cells_of_displaced {s t : State} {r : RingId} {c : Cell} (hm : s.MemoryOk) (hfits : (s.ring r).Fits)
    (hfull : (s.ring r).level = (s.ring r).cap)
    (hmem : t.mem = Memory.writeCell s.mem (s.ring r).base (s.ring r).width (s.ring r).tail c)
    (hbase : (t.ring r).base = (s.ring r).base) (hwidth : (t.ring r).width = (s.ring r).width)
    (hcap : (t.ring r).cap = (s.ring r).cap) (hlevel : (t.ring r).level = (s.ring r).level)
    (hhead : (t.ring r).head = (s.ring r).next (s.ring r).head) :
    t.cells r = (s.cells r).tail ++ [lowBits (s.ring r).width c] := by
  have hpos := hfits.cap_pos
  obtain ⟨k, hk⟩ : ∃ k, (s.ring r).cap = k + 1 := ⟨(s.ring r).cap - 1, by omega⟩
  have hindex : ∀ i, ((t.ring r).head + i) % (t.ring r).cap = ((s.ring r).head + (i + 1)) % (s.ring r).cap := fun i => by
    rw [hhead, hcap, Ring.next_eq_mod hfits.head, Nat.mod_add_mod, Nat.add_assoc, Nat.add_comm 1 i]
  refine State.cells_displaced (hfull.trans hk) (hlevel.trans (hfull.trans hk)) (fun i hi => ?_) ?_
  · refine State.peekCell_congr hbase hwidth (hindex i) ?_
    rw [hmem]
    apply Memory.readCell_writeCell_of_ne _ _ hfits.width
    rw [hfits.tail]
    exact index_ne (by omega) (by omega)
  · have hlast : ((t.ring r).head + k) % (t.ring r).cap = (s.ring r).tail := by
      rw [hindex, hfits.tail, hfull, ← hk]
    simp only [State.peekCell, hlast, hbase, hwidth, hmem]
    exact Memory.readCell_writeCell_self c hm hfits.width (hfits.cellAddr_le_memBytes hfits.tail_lt)

/-- A lane's claim under DROP_NEW. -/
theorem State.dropNew_frame (s : State) (r : RingId) (n : LaneId) :
    (s.primeFull r).countOverrun r n = { s with
      rings := ((s.primeFull r).countOverrun r n).rings,
      notices := if (s.ring r).overrunEpisode then s.notices
        else s.notices.post ⟨.ringOverrun, .ring r, some (s.lane n).frameCount, BitVec.ofNat 8 n.val⟩ } := by
  have hframe := (s.primeFull r).countOverrun_frame r n
  rw [State.notices_countOverrun, State.ring_primeFull_self] at hframe
  exact hframe

/-- A lane's claim under DROP_OLDEST. -/
theorem State.dropOldest_frame (s : State) (r : RingId) (c : Cell) (n : LaneId) :
    ((s.displaceCell r c).primeFull r).countOverrun r n = { s with
      mem := Memory.writeCell s.mem (s.ring r).base (s.ring r).width (s.ring r).tail c,
      rings := (((s.displaceCell r c).primeFull r).countOverrun r n).rings,
      notices := if (s.ring r).overrunEpisode then s.notices
        else s.notices.post ⟨.ringOverrun, .ring r, some (s.lane n).frameCount, BitVec.ofNat 8 n.val⟩ } := by
  have hframe := (s.displaceCell r c).dropNew_frame r n
  rw [State.ring_displaceCell_self] at hframe
  exact hframe

theorem State.fits_displaceCell {s : State} {r : RingId} (hfits : (s.ring r).Fits) (c : Cell) :
    ((s.displaceCell r c).ring r).Fits := by
  rw [State.ring_displaceCell_self]
  exact hfits.displaced

/-- Settles O19: the three branches of an append claim on a full ring. -/
theorem fullRingAnswersByClaimantAndPolicy : Obligations.FullRingAnswersByClaimantAndPolicy := by
  intro s r c n hm hrings hregions ho hfull
  have hfits := (hrings r).fits ho
  refine ⟨⟨_, State.appendClaim_host_of_full c ho hfull, rfl, fun q hq => s.ring_primeFull_of_ne hq,
    State.ring_primeFull_of_full hfits hfull⟩, ?_⟩
  cases hpolicy : (s.ring r).fullPolicy with
  | dropNew =>
    have hother : ∀ q, q ≠ r → ((s.primeFull r).countOverrun r n).ring q = s.ring q := fun q hq => by
      rw [State.ring_countOverrun_of_ne _ n hq, State.ring_primeFull_of_ne s hq]
    have hself : ((s.primeFull r).countOverrun r n).ring r = { s.ring r with
        primed := true, overrunEpisode := true, overrunCount := satIncWord (s.ring r).overrunCount } := by
      rw [State.ring_countOverrun_self, State.ring_primeFull_of_full hfits hfull]
    have hmem : ((s.primeFull r).countOverrun r n).mem = s.mem := by rw [State.mem_countOverrun]; rfl
    refine ⟨_, State.appendClaim_lane_of_dropNew c n ho hfull hpolicy,
      fun q hq => ⟨hother q hq, State.cells_of_same hmem (hother q hq)⟩, ?_, s.dropNew_frame r n, ?_⟩
    · refine State.cells_congr (by rw [hself]) fun i _ => ?_
      simp only [State.peekCell, hself, hmem]
    · rw [hself, satIncWord_eq]
      rfl
  | dropOldest =>
    have hother : ∀ q, q ≠ r → (((s.displaceCell r c).primeFull r).countOverrun r n).ring q = s.ring q := fun q hq => by
      rw [State.ring_countOverrun_of_ne _ n hq, State.ring_primeFull_of_ne _ hq, State.ring_displaceCell_of_ne s c hq]
    have hself : (((s.displaceCell r c).primeFull r).countOverrun r n).ring r = { s.ring r with
        head := (s.ring r).next (s.ring r).head, tail := (s.ring r).next (s.ring r).tail,
        primed := true, overrunEpisode := true, overrunCount := satIncWord (s.ring r).overrunCount } := by
      rw [State.ring_countOverrun_self,
        State.ring_primeFull_of_full (State.fits_displaceCell hfits c) (by rw [State.ring_displaceCell_self]; exact hfull),
        State.ring_displaceCell_self]
    have hmem : (((s.displaceCell r c).primeFull r).countOverrun r n).mem =
        Memory.writeCell s.mem (s.ring r).base (s.ring r).width (s.ring r).tail c := by
      rw [State.mem_countOverrun]
      rfl
    refine ⟨_, State.appendClaim_lane_of_dropOldest c n ho hfull hpolicy,
      fun q hq => ⟨hother q hq, State.cells_of_other hrings hregions ho hfits.tail_lt hmem hq (hother q hq)⟩, ?_,
      s.dropOldest_frame r c n, ?_⟩
    · exact State.cells_of_displaced hm hfits hfull hmem (by rw [hself]) (by rw [hself]) (by rw [hself]) (by rw [hself])
        (by rw [hself])
    · rw [hself, satIncWord_eq]
      rfl

end Sys2Proof.Machine
end

section
/-! PROOFS. RING_FLUSH, the settings of a ring, and the refusals that ring and map commands share (R7 to R10, R76). -/

namespace Sys2Proof.Machine

/-! ## RING_FLUSH (R7) -/

theorem exec_ringFlush (s : State) : exec .ringFlush s = .next (arrive 0x12 ringFlushOwner s) := rfl

theorem ringFlushOwner_of_opened {s : State} {r : RingId} (h : s.win.arg0.toNat = r.val)
    (ho : (s.ring r).state = .opened) :
    ringFlushOwner s = if s.activeAt r then (s, .plain .seatBusy) else (s.flush r, .plain .done) :=
  onOpenRing_of_opened _ h ho

theorem State.seatedAt_iff (s : State) (ch : ChanId) (r : RingId) :
    s.seatedAt ch r = true ↔ ∃ a, (s.chan ch).attach = some a ∧ a.ring = r := by
  simp only [State.seatedAt]
  split
  · rename_i h; simp [h]
  · rename_i a h; simp [h]

theorem State.activeAt_iff (s : State) (r : RingId) :
    s.activeAt r = true ↔ ∃ ch a, (s.chan ch).attach = some a ∧ a.ring = r ∧ (s.chan ch).state = .active := by
  have hseated : ∀ ch : ChanId, (s.seatedAt ch r && (s.chan ch).state == .active) = true ↔
      ∃ a, (s.chan ch).attach = some a ∧ a.ring = r ∧ (s.chan ch).state = .active := fun ch => by
    rw [Bool.and_eq_true, State.seatedAt_iff, beq_iff_eq]
    constructor
    · rintro ⟨⟨a, ha, hr⟩, hactive⟩
      exact ⟨a, ha, hr, hactive⟩
    · rintro ⟨a, ha, hr, hactive⟩
      exact ⟨⟨a, ha, hr⟩, hactive⟩
  rw [State.activeAt, Bool.or_eq_true, hseated, hseated, Fin.exists_fin_two]

theorem State.report_eq_self {s : State} {r : RingId} (h : ∀ ch, (s.report r).chan ch = s.chan ch) : s.report r = s := by
  rw [State.report_frame, State.chans_ext h]

/-- A level report finds no request to evaluate where no ACTIVE channel holds a seat of the ring. -/
theorem State.report_of_idle {s : State} {r : RingId} (h : s.activeAt r = false) : s.report r = s := by
  refine State.report_eq_self fun ch => ?_
  cases hseat : s.seatedAt ch r with
  | false => rw [State.chan_report_self, hseat]; rfl
  | true =>
    obtain ⟨a, ha, rfl⟩ := (s.seatedAt_iff ch r).mp hseat
    rw [State.chan_report_of_attached ha]
    refine if_neg fun hactive => ?_
    rw [(s.activeAt_iff a.ring).mpr ⟨ch, a, ha, rfl, hactive.1⟩] at h
    cases h

theorem State.activeAt_rezone_setRing (s : State) (r q : RingId) (g : Ring) :
    ((s.setRing r g).rezone r).activeAt q = s.activeAt q := by
  simp only [State.activeAt, State.seatedAt, State.chan_rezone, State.chan_setRing]

/-- With no ACTIVE channel at the ring a flush is a change of its record and an evaluation of its Zone. -/
theorem State.flush_of_idle {s : State} {r : RingId} (h : s.activeAt r = false) :
    s.flush r = (s.setRing r (s.ring r).flushed).rezone r := by
  have hidle : ((s.setRing r (s.ring r).flushed).rezone r).activeAt r = false := by
    rw [State.activeAt_rezone_setRing, h]
  simp only [State.flush, State.report_of_idle hidle, ite_self]

theorem Ring.zoneNow_flushed (g : Ring) : g.flushed.zoneNow = .low := if_pos (Nat.zero_le _)

/-- Settles O12: a flush is refused under an ACTIVE channel; else no request is evaluated, and the Zone is LOW at
Level 0. -/
theorem ringFlushEmptiesTheRing : Obligations.RingFlushEmptiesTheRing := by
  intro s r hs hr ho
  dsimp only
  rw [exec_ringFlush, ← State.activeAt_iff]
  have howner := ringFlushOwner_of_opened (s := s.setCmd 0x12) hr ho
  refine ⟨fun hbusy => next_arrive_of_unchanged hs (howner.trans (if_pos hbusy)), fun hidle => ?_⟩
  have hflush := State.flush_of_idle (s := s.setCmd 0x12) (Bool.eq_false_of_not_eq_true hidle)
  have hself : ((s.setCmd 0x12).flush r).ring r = { (s.ring r).flushed with zone := .low } := by
    rw [hflush, State.ring_rezone_self, State.ring_setRing_self, Ring.zoneNow_flushed, State.ring_setCmd]
  refine ⟨_, rfl, ?_⟩
  rw [arrive_of_accepts hs, howner.trans (if_neg hidle)]
  refine ⟨?_, fun q hq => ?_, hself, State.cells_of_empty (congrArg Ring.level hself)⟩
  · have hframe := ((s.setCmd 0x12).setRing r (s.ring r).flushed).rezone_frame r
    rw [State.notices_rezone, State.ring_setRing_self, Ring.zoneNow_flushed] at hframe
    have hzone : (Zone.low = (s.ring r).flushed.zone) = ((s.ring r).zone = .low) := propext eq_comm
    simp only [hzone] at hframe
    dsimp only
    rw [hflush]
    exact congrArg (State.answer · (.plain .done)) hframe
  · show ((s.setCmd 0x12).flush r).ring q = _
    rw [hflush, State.ring_rezone_of_ne _ hq, State.ring_setRing_of_ne _ _ _ _ hq, State.ring_setCmd]

/-! ## RING_MARKS, RING_POLICY and RING_FILL (R8 to R10) -/

theorem exec_ringMarks (s : State) : exec .ringMarks s = .next (arrive 0x13 ringMarksOwner s) := rfl
theorem exec_ringPolicy (s : State) : exec .ringPolicy s = .next (arrive 0x14 ringPolicyOwner s) := rfl
theorem exec_ringFill (s : State) : exec .ringFill s = .next (arrive 0x15 ringFillOwner s) := rfl

theorem ringMarksOwner_of_opened {s : State} {r : RingId} (h : s.win.arg0.toNat = r.val)
    (ho : (s.ring r).state = .opened) :
    ringMarksOwner s =
      if s.win.arg1.toNat < s.win.arg2.toNat ∧ s.win.arg2.toNat ≤ (s.ring r).cap then
        ((s.setRing r { s.ring r with lowMark := s.win.arg1.toNat, highMark := s.win.arg2.toNat }).rezone r, .plain .done)
      else (s, .plain .badParam) :=
  onOpenRing_of_opened _ h ho

theorem emptyPolicyArg_eq_some {w : Word} (h : w.toNat ≤ 1) :
    emptyPolicyArg w = some (if w.toNat = 0 then .fill else .repeatLast) := by
  have hcases : w.toNat = 0 ∨ w.toNat = 1 := by omega
  rcases hcases with h0 | h1
  · simp [emptyPolicyArg, h0]
  · simp [emptyPolicyArg, h1]

theorem fullPolicyArg_eq_some {w : Word} (h : w.toNat ≤ 1) :
    fullPolicyArg w = some (if w.toNat = 0 then .dropNew else .dropOldest) := by
  have hcases : w.toNat = 0 ∨ w.toNat = 1 := by omega
  rcases hcases with h0 | h1
  · simp [fullPolicyArg, h0]
  · simp [fullPolicyArg, h1]

theorem emptyPolicyArg_eq_none {w : Word} (h : 1 < w.toNat) : emptyPolicyArg w = none := by
  unfold emptyPolicyArg
  split
  · omega
  · omega
  · rfl

theorem fullPolicyArg_eq_none {w : Word} (h : 1 < w.toNat) : fullPolicyArg w = none := by
  unfold fullPolicyArg
  split
  · omega
  · omega
  · rfl

theorem ringPolicyOwner_badParam {s : State} {r : RingId} (h : s.win.arg0.toNat = r.val)
    (ho : (s.ring r).state = .opened) (hbad : 1 < s.win.arg1.toNat ∨ 1 < s.win.arg2.toNat ∨ 1 < s.win.arg3.toNat) :
    ringPolicyOwner s = (s, .plain .badParam) := by
  rw [ringPolicyOwner, onOpenRing_of_opened _ h ho]
  rcases hbad with h1 | h2 | h3
  · simp [emptyPolicyArg_eq_none h1]
  · simp [fullPolicyArg_eq_none h2]
  · simp [flagArg_eq_none h3]

theorem ringPolicyOwner_of_opened {s : State} {r : RingId} (h : s.win.arg0.toNat = r.val)
    (ho : (s.ring r).state = .opened) (h1 : s.win.arg1.toNat ≤ 1) (h2 : s.win.arg2.toNat ≤ 1)
    (h3 : s.win.arg3.toNat ≤ 1) :
    ringPolicyOwner s =
      (s.setRing r ((s.ring r).withPolicy (if s.win.arg1.toNat = 0 then .fill else .repeatLast)
        (if s.win.arg2.toNat = 0 then .dropNew else .dropOldest) (decide (s.win.arg3.toNat = 1))), .plain .done) := by
  rw [ringPolicyOwner, onOpenRing_of_opened _ h ho, emptyPolicyArg_eq_some h1, fullPolicyArg_eq_some h2,
    flagArg_eq_some h3]

/-- Primed falls where Prime goes from off to on, and else stands (R9). -/
theorem Ring.withPolicy_eq (g : Ring) (e : EmptyPolicy) (f : FullPolicy) (p : Prop) [Decidable p] :
    g.withPolicy e f (decide p) = { g with
      emptyPolicy := e, fullPolicy := f, prime := decide p,
      primed := if p ∧ g.prime = false then false else g.primed } := by
  by_cases hp : p
  · cases hprime : g.prime <;> simp [Ring.withPolicy, hp, hprime]
  · simp [Ring.withPolicy, hp]

theorem toNat_cellOf (hi lo : Word) : (cellOf hi lo).toNat = hi.toNat * 65536 + lo.toNat := by
  have h1 := hi.isLt
  have h2 := lo.isLt
  simp only [cellOf, BitVec.toNat_ofNat]
  omega

theorem ringFillOwner_of_opened {s : State} {r : RingId} (h : s.win.arg0.toNat = r.val)
    (ho : (s.ring r).state = .opened) :
    ringFillOwner s = (s.setRing r { s.ring r with
      fill := BitVec.ofNat 32 ((s.win.arg2.toNat * 65536 + s.win.arg1.toNat) % 2 ^ (s.ring r).width) }, .plain .done) := by
  rw [← toNat_cellOf]
  exact onOpenRing_of_opened _ h ho

/-- Settles O13: each owner writes the ring's record; RING_MARKS evaluates the Zone after it. -/
theorem ringSettingsTakeTheirFields : Obligations.RingSettingsTakeTheirFields := by
  refine ⟨fun s r hs hr ho => ⟨fun hbad => ?marksRefused, fun hlt hle => ?marks⟩,
    fun s r hs hr ho => ⟨fun hbad => ?policyRefused, fun h1 h2 h3 => ?policy, ?fill⟩⟩
  case marksRefused =>
    rw [exec_ringMarks]
    exact next_arrive_of_unchanged hs ((ringMarksOwner_of_opened (s := s.setCmd 0x13) hr ho).trans (if_neg hbad))
  case marks =>
    have howner := (ringMarksOwner_of_opened (s := s.setCmd 0x13) hr ho).trans (if_pos ⟨hlt, hle⟩)
    refine ⟨_, rfl, ?_⟩
    rw [arrive_of_accepts hs, howner]
    refine ⟨?_, fun q hq => ?_, ?_⟩
    · rw [State.rezone_frame, State.notices_rezone, State.ring_setRing_self]
      rfl
    · rw [State.ring_answer, State.ring_rezone_of_ne _ hq, State.ring_setRing_of_ne _ _ _ _ hq, State.ring_setCmd]
    · rw [State.ring_answer, State.ring_rezone_self, State.ring_setRing_self]
      rfl
  case policyRefused =>
    rw [exec_ringPolicy]
    exact next_arrive_of_unchanged hs (ringPolicyOwner_badParam hr ho hbad)
  case policy =>
    rw [exec_ringPolicy, ← Ring.withPolicy_eq]
    exact exists_arrive_of_setRing hs (ringPolicyOwner_of_opened (s := s.setCmd 0x14) hr ho h1 h2 h3)
  case fill =>
    rw [exec_ringFill]
    exact exists_arrive_of_setRing hs (ringFillOwner_of_opened (s := s.setCmd 0x15) hr ho)

/-! ## Bad operands (R6 to R13, R76 to R89) -/

/-- The ring commands whose first two refusals are those of an OPEN ring. -/
theorem exec_eq_onOpenRing {c : Instr} {code : Word} (hcode : windowCode c = some code)
    (hc : c ∈ [Instr.ringFlush, .ringMarks, .ringPolicy, .ringFill, .ringPeek]) :
    ∃ f, ∀ s, exec c s = .next (arrive code (onOpenRing f) s) := by
  simp only [List.mem_cons, List.not_mem_nil, or_false] at hc
  rcases hc with rfl | rfl | rfl | rfl | rfl
  · cases hcode; exact ⟨_, fun _ => rfl⟩
  · cases hcode; exact ⟨_, fun _ => rfl⟩
  · cases hcode; exact ⟨_, fun _ => rfl⟩
  · cases hcode; exact ⟨_, fun _ => rfl⟩
  · cases hcode; exact ⟨_, fun _ => rfl⟩

/-- A map command refuses a lane above 3 first, whatever it does else. -/
theorem next_arrive_onLane_of_badLane {code : Word} (f : State → LaneId → State × Answer) {s : State} (hs : s.Accepts)
    (h : 4 ≤ s.win.arg0.toNat) :
    (Host.Outcome.next (arrive code (onLane f) s) : Outcome) = .next (s.onlyAnswered code (.plain .badParam)) :=
  next_arrive_of_unchanged hs (onLane_of_badLane f h)

/-- Where the lane is in range, the owner's own check of the other operands refuses. -/
theorem next_arrive_onLane_badParam {code : Word} {f : State → LaneId → State × Answer} {s : State} (hs : s.Accepts)
    (hf : 4 ≤ s.win.arg0.toNat ∨ ∀ n, f (s.setCmd code) n = (s.setCmd code, .plain .badParam)) :
    (Host.Outcome.next (arrive code (onLane f) s) : Outcome) = .next (s.onlyAnswered code (.plain .badParam)) := by
  by_cases hlane : 4 ≤ s.win.arg0.toNat
  · exact next_arrive_onLane_of_badLane f hs hlane
  · have hf := hf.resolve_left hlane
    exact next_arrive_of_unchanged hs
      ((onLane_of_lane f (s := s.setCmd code) (n := ⟨s.win.arg0.toNat, Nat.not_le.mp hlane⟩) rfl).trans (hf _))

theorem txKindArg_eq_none {w : Word} (h : w.toNat % 4 = 3) : txKindArg w = none := by
  simp [txKindArg, h]

/-- Settles O14: the checks that `onOpenRing` and `onLane` make, and those of slots, kinds, banks and parts. -/
theorem ringAndMapCommandsRefuseBadOperands : Obligations.RingAndMapCommandsRefuseBadOperands := by
  refine ⟨fun s c code hs hcode hc => ?rings, fun s hs => ⟨fun h => ?mapWrite, fun h => ?mapConst, fun h => ?lanes,
    fun h => ?mapRead⟩⟩
  case rings =>
    obtain ⟨f, hexec⟩ := exec_eq_onOpenRing hcode hc
    rw [hexec]
    exact ⟨fun h => next_arrive_of_unchanged hs (onOpenRing_of_badRing f h),
      fun r hr hclosed => next_arrive_of_unchanged hs (onOpenRing_of_closed f hr hclosed)⟩
  case mapWrite =>
    refine next_arrive_onLane_badParam hs (h.imp_right fun h _ => ?_)
    rcases h with hslot | hkind
    · simp [slotArg_eq_none hslot]
    · simp [txKindArg_eq_none hkind]
  case mapConst =>
    refine next_arrive_onLane_badParam hs (h.imp_right fun hslot _ => ?_)
    simp [slotArg_eq_none hslot]
  case lanes =>
    exact ⟨next_arrive_onLane_of_badLane _ hs h, next_arrive_onLane_of_badLane _ hs h,
      next_arrive_onLane_of_badLane _ hs h, next_arrive_onLane_of_badLane _ hs h⟩
  case mapRead =>
    refine next_arrive_onLane_badParam hs (h.imp_right fun h _ => ?_)
    rcases h with hbank | hslot | hpart
    · simp [flagArg_eq_none hbank]
    · simp [slotArg_eq_none hslot]
    · simp [flagArg_eq_none hpart]

end Sys2Proof.Machine
end

section
/-! PROOFS. DETACH and the commands on channels (R32, R33, R130, R133, R134). -/

namespace Sys2Proof.Machine

/-! ## DETACH (R32, R33) -/

theorem exec_detach (s : State) : exec .detach s = .next (arrive 0x21 detachOwner s) := rfl

theorem detachOwner_badParam {s : State} (h : 4 ≤ s.win.arg0.toNat) : detachOwner s = (s, .plain .badParam) := by
  simp [detachOwner, agentArg_eq_none h]

theorem detachOwner_of_unattached {s : State} {a : Agent} (h : s.win.arg0.toNat = a.code) (hnone : s.attachOf a = none) :
    detachOwner s = (s, .plain .notAttached) := by
  simp [detachOwner, agentArg_eq_some h, hnone]

theorem detachOwner_of_attached {s : State} {a : Agent} {att : Attachment} (h : s.win.arg0.toNat = a.code)
    (hatt : s.attachOf a = some att) :
    detachOwner s = if s.agentRunning a then (s, .plain .agentBusy) else (s.detachAgent a att, .plain .done) := by
  simp [detachOwner, agentArg_eq_some h, hatt]

theorem State.agentRunning_iff (s : State) (a : Agent) :
    s.agentRunning a = true ↔ ∃ ch, a = .dma ch ∧ (s.chan ch).state ≠ .idle := by
  cases a <;> simp [State.agentRunning]

@[simp] theorem State.attachOf_clearAgent_self (s : State) (a : Agent) : (s.clearAgent a).attachOf a = none := by
  cases a <;> simp [State.clearAgent, State.attachOf]

theorem State.attachOf_clearAgent_of_ne (s : State) {a b : Agent} (h : b ≠ a) :
    (s.clearAgent a).attachOf b = s.attachOf b := by
  cases a with
  | pr =>
    cases b with
    | pr => exact absurd rfl h
    | pw => rfl
    | dma d => rfl
  | pw =>
    cases b with
    | pr => rfl
    | pw => exact absurd rfl h
    | dma d => rfl
  | dma ch =>
    cases b with
    | pr => rfl
    | pw => rfl
    | dma d =>
      have hd : d ≠ ch := fun e => h (congrArg Agent.dma e)
      simp only [State.clearAgent, State.attachOf, State.chan_setChan_of_ne _ _ _ _ hd]

theorem State.pr_clearAgent (s : State) (a : Agent) :
    (s.clearAgent a).pr =
      if a = .pr then { s.pr with record := { s.pr.record with attached := false }, latch := 0 } else s.pr := by
  cases a <;> rfl

theorem State.pw_clearAgent (s : State) (a : Agent) :
    (s.clearAgent a).pw =
      if a = .pw then { s.pw with record := { s.pw.record with attached := false }, staging := 0 } else s.pw := by
  cases a <;> rfl

theorem State.chan_clearAgent (s : State) (a : Agent) (d : ChanId) :
    (s.clearAgent a).chan d =
      if a = .dma d then
        { s.chan d with
          record := { (s.chan d).record with attached := false },
          latch := 0, staging := 0, grant := 0, gap := false, phase := .first }
      else s.chan d := by
  cases a with
  | pr => rfl
  | pw => rfl
  | dma ch =>
    by_cases hd : d = ch
    · subst hd
      rw [if_pos rfl]
      exact State.chan_setChan_self s d _
    · rw [if_neg fun e => hd (Agent.dma.inj e).symm]
      exact State.chan_setChan_of_ne s ch d _ hd

/-- Everything an accepted DETACH can change: one ring record and the records of the agents. -/
theorem State.detachAgent_frame (s : State) (a : Agent) (att : Attachment) :
    s.detachAgent a att = { s with
      rings := (s.detachAgent a att).rings, pr := (s.detachAgent a att).pr,
      pw := (s.detachAgent a att).pw, chans := (s.detachAgent a att).chans } := by
  cases a <;> rfl

theorem State.ring_detachAgent (s : State) (a : Agent) (att : Attachment) (q : RingId) :
    (s.detachAgent a att).ring q = (s.setRing att.ring ((s.ring att.ring).setSeat att.side .free)).ring q := by
  cases a <;> rfl

/-- Settles O22: the agent's code, its record and, of a channel, its state decide in turn; an accepted DETACH frees one
seat and clears one agent. -/
theorem detachChecksAndFreesTheSeat : Obligations.DetachChecksAndFreesTheSeat := by
  intro s hs
  dsimp only
  rw [exec_detach]
  refine ⟨fun h => next_arrive_of_unchanged hs (detachOwner_badParam h), fun a ha => ?_⟩
  have hcode : s.win.arg0.toNat = a.code := by cases a <;> exact ha
  refine ⟨fun hnone => next_arrive_of_unchanged hs (detachOwner_of_unattached (s := s.setCmd 0x21) hcode hnone),
    fun att hatt => ?_⟩
  have howner := detachOwner_of_attached (s := s.setCmd 0x21) hcode hatt
  refine ⟨fun hrunning => ?busy, fun hidle => ?accepted⟩
  case busy =>
    have hbusy : (s.setCmd 0x21).agentRunning a = true := (State.agentRunning_iff _ a).mpr hrunning
    exact next_arrive_of_unchanged hs (howner.trans (if_pos hbusy))
  case accepted =>
    have hfree : ¬(s.setCmd 0x21).agentRunning a = true := fun hrunning => by
      obtain ⟨ch, hch, hstate⟩ := (State.agentRunning_iff _ a).mp hrunning
      exact hstate (hidle ch hch)
    refine ⟨_, rfl, ?_⟩
    rw [arrive_of_accepts hs, howner.trans (if_neg hfree)]
    refine ⟨?_, fun q hq => ?_, ?_, ?_, fun b hb => ?_, ?_, ?_, fun ch => ?_⟩
    · rw [State.detachAgent_frame]
      rfl
    · rw [State.ring_answer, State.ring_detachAgent, State.ring_setRing_of_ne _ _ _ _ hq, State.ring_setCmd]
    · rw [State.ring_answer, State.ring_detachAgent, State.ring_setRing_self, State.ring_setCmd]
    · exact State.attachOf_clearAgent_self _ a
    · exact State.attachOf_clearAgent_of_ne _ hb
    · exact State.pr_clearAgent _ a
    · exact State.pw_clearAgent _ a
    · exact State.chan_clearAgent _ a ch

/-! ## Commands that write one channel record -/

/-- An owner that writes one channel record: that record and the window registers take values, and nothing else. -/
theorem exists_arrive_of_setChan {code : Word} {owner : Owner} {s : State} {ch : ChanId} {c : Channel} {a : Answer}
    (h : s.Accepts) (ho : owner (s.setCmd code) = ((s.setCmd code).setChan ch c, a)) :
    ∃ t, (Host.Outcome.next (arrive code owner s) : Outcome) = .next t ∧
      t = { s with chans := t.chans, win := s.win.answered code a } ∧ s.SameChansBut t ch ∧ t.chan ch = c := by
  refine ⟨_, rfl, ?_⟩
  rw [arrive_of_accepts h, ho]
  refine ⟨rfl, fun d hd => ?_, ?_⟩
  · simp [hd]
  · simp

/-! ## DMA_SET (R130) -/

/-- What DMA_SET asks of a setting and its value (R130). -/
def DmaSettingInRange (setting value : Nat) : Prop :=
  (setting = 0 ∧ value ≤ 1) ∨
  (setting = 1 ∧ (value = 1 ∨ value = 2 ∨ value = 4 ∨ value = 8 ∨ value = 16)) ∨
  (setting = 2 ∧ 1 ≤ value) ∨ (setting = 3 ∧ value ≤ 1)

theorem dmaSettingOk_iff (setting value : Nat) :
    dmaSettingOk setting value = true ↔ DmaSettingInRange setting value := by
  unfold dmaSettingOk DmaSettingInRange
  split
  · simp
  · simp [or_assoc]
  · simp
  · simp
  · rename_i h0 h1 h2 h3
    refine ⟨fun h => absurd h (by decide), fun h => ?_⟩
    rcases h with h | h | h | h
    · exact absurd h.1 h0
    · exact absurd h.1 h1
    · exact absurd h.1 h2
    · exact absurd h.1 h3

theorem exec_dmaSet (s : State) : exec .dmaSet s = .next (arrive 0x50 dmaSetOwner s) := rfl

theorem dmaSetOwner_badParam {s : State}
    (h : 2 ≤ s.win.arg0.toNat ∨ ¬DmaSettingInRange s.win.arg1.toNat s.win.arg2.toNat) :
    dmaSetOwner s = (s, .plain .badParam) := by
  by_cases hch : 2 ≤ s.win.arg0.toNat
  · exact onChan_of_badChan _ hch
  · have hbad := h.resolve_left hch
    rw [← dmaSettingOk_iff] at hbad
    refine (onChan_of_chan _ (ch := ⟨s.win.arg0.toNat, Nat.not_le.mp hch⟩) rfl).trans (if_pos ?_)
    simpa using hbad

theorem dmaSetOwner_of_inRange {s : State} {ch : ChanId} (h : s.win.arg0.toNat = ch.val)
    (hin : DmaSettingInRange s.win.arg1.toNat s.win.arg2.toNat) :
    dmaSetOwner s =
      if (s.chan ch).state ≠ .idle then (s, .plain .agentBusy)
      else (s.setChan ch ((s.chan ch).put s.win.arg1.toNat s.win.arg2), .plain .done) := by
  rw [← dmaSettingOk_iff] at hin
  exact (onChan_of_chan _ h).trans (if_neg (by simp [hin]))

/-- Each setting takes one field. -/
theorem Channel.put_eq (c : Channel) (setting : Nat) (value : Word) :
    c.put setting value = { c with
      mode := if setting = 0 then (if value.toNat = 1 then .free else .count) else c.mode,
      quantum := if setting = 1 then value.toNat else c.quantum,
      count := if setting = 2 then value else c.count,
      form := if setting = 3 then (if value.toNat = 1 then .addressed else .acked) else c.form } := by
  unfold Channel.put
  split
  · simp
  · simp
  · simp
  · simp
  · rename_i h0 h1 h2 h3
    rw [if_neg h0, if_neg h1, if_neg h2, if_neg h3]

/-- Settles O32: the operands, then the channel's state decide; an accepted DMA_SET writes one record. -/
theorem dmaSetChecksAndWritesOneSetting : Obligations.DmaSetChecksAndWritesOneSetting := by
  intro s hs
  dsimp only
  rw [exec_dmaSet]
  refine ⟨fun h => next_arrive_of_unchanged hs (dmaSetOwner_badParam h), fun ch hch hin => ?_⟩
  have howner := dmaSetOwner_of_inRange (s := s.setCmd 0x50) hch hin
  refine ⟨fun hbusy => next_arrive_of_unchanged hs (howner.trans (if_pos hbusy)), fun hidle => ?_⟩
  have hdone := howner.trans (if_neg (not_not_intro hidle))
  rw [Channel.put_eq] at hdone
  exact exists_arrive_of_setChan hs hdone

/-! ## DMA_GO and DMA_HALT (R133, R134) -/

theorem exec_dmaGo (s : State) : exec .dmaGo s = .next (arrive 0x51 dmaGoOwner s) := rfl
theorem exec_dmaHalt (s : State) : exec .dmaHalt s = .next (arrive 0x52 dmaHaltOwner s) := rfl

theorem dmaGoOwner_of_chan {s : State} {ch : ChanId} (h : s.win.arg0.toNat = ch.val) :
    dmaGoOwner s =
      if (s.chan ch).attach = none then (s, .plain .notAttached)
      else if (s.chan ch).state ≠ .idle then (s, .plain .agentBusy)
      else ((s.setChan ch (s.chan ch).started).evaluate ch, .plain .done) :=
  onChan_of_chan _ h

theorem dmaHaltOwner_of_chan {s : State} {ch : ChanId} (h : s.win.arg0.toNat = ch.val) :
    dmaHaltOwner s =
      if (s.chan ch).state = .idle then (s, .plain .already)
      else (s.setChan ch (s.chan ch).halted, .plain .done) :=
  onChan_of_chan _ h

/-- An evaluation as a write of the channel's record. -/
theorem State.evaluate_eq_setChan (s : State) (ch : ChanId) : s.evaluate ch = s.setChan ch ((s.evaluate ch).chan ch) := by
  simp only [State.evaluate]
  split
  · simp
  · split <;> simp

theorem Channel.want_started (c : Channel) :
    c.started.want = match c.mode with
      | .count => min c.quantum c.count.toNat
      | .free => c.quantum := by
  cases hmode : c.mode <;> simp [Channel.want, Channel.started, hmode]

/-- The request that a start evaluates at once (R133, R135). -/
theorem State.chan_evaluate_started {s : State} {ch : ChanId} {a : Attachment} (ha : (s.chan ch).attach = some a) :
    ((s.setChan ch (s.chan ch).started).evaluate ch).chan ch = { (s.chan ch).started with
      grant := if (s.chan ch).started.want ≤ (s.ring a.ring).available a.side then (s.chan ch).started.want else 0 } := by
  have hself : (s.setChan ch (s.chan ch).started).chan ch = (s.chan ch).started := s.chan_setChan_self ch _
  have hattach : ((s.setChan ch (s.chan ch).started).chan ch).attach = some a := by rw [hself]; exact ha
  rw [State.chan_evaluate_of_attached hattach, hself, State.ring_setChan]
  split
  · rename_i h
    rw [if_pos h.2.2]
  · rename_i h
    rw [if_neg fun hwant => h ⟨rfl, rfl, hwant⟩]
    rfl

/-- Settles O33: each command writes one channel record, DMA_GO evaluating the request of the started run. -/
theorem dmaGoStartsAndHaltEndsARun : Obligations.DmaGoStartsAndHaltEndsARun := by
  refine ⟨fun s hs => ⟨fun h => ?goBad, fun ch hch => ?go⟩, fun s hs => ⟨fun h => ?haltBad, fun ch hch => ?halt⟩⟩
  case goBad =>
    rw [exec_dmaGo]
    exact next_arrive_of_unchanged hs (onChan_of_badChan _ h)
  case haltBad =>
    rw [exec_dmaHalt]
    exact next_arrive_of_unchanged hs (onChan_of_badChan _ h)
  case go =>
    rw [exec_dmaGo]
    have howner := dmaGoOwner_of_chan (s := s.setCmd 0x51) hch
    refine ⟨fun hnone => ?_, fun hatt hbusy => ?_, fun a ha hidle => ?_⟩
    · exact next_arrive_of_unchanged hs (howner.trans (if_pos hnone))
    · exact next_arrive_of_unchanged hs (howner.trans ((if_neg hatt).trans (if_pos hbusy)))
    · have hatt : ¬(s.chan ch).attach = none := by simp [ha]
      have hdone := howner.trans ((if_neg hatt).trans (if_neg (not_not_intro hidle)))
      rw [State.evaluate_eq_setChan, State.chan_evaluate_started (s := s.setCmd 0x51) ha, State.setChan_setChan,
        Ring.available_eq, Channel.want_started] at hdone
      exact exists_arrive_of_setChan hs hdone
  case halt =>
    rw [exec_dmaHalt]
    have howner := dmaHaltOwner_of_chan (s := s.setCmd 0x52) hch
    refine ⟨fun hidle => next_arrive_of_unchanged hs (howner.trans (if_pos hidle)), fun hrunning => ?_⟩
    obtain ⟨t, hexec, hframe, hothers, hself⟩ := exists_arrive_of_setChan hs (howner.trans (if_neg hrunning))
    exact ⟨t, hexec, hframe, hothers, hself, by rw [hself]; rfl⟩

end Sys2Proof.Machine
end

section
/-! PROOFS. Entry to OFF, LANE_STOP, LANE_ABORT and LANE_SET (R46, R51 to R53, R74, R90, R94). -/

namespace Sys2Proof.Machine

/-! ## Entry to OFF (R53, R90) -/

theorem State.cancelSwap_of_pending {s : State} {n : LaneId} (h : (s.smap n).swapPending = true) :
    s.cancelSwap n = (s.dropSwap n).post ⟨.swapCancelled, .lane n, none, 0⟩ := if_pos h

theorem State.cancelSwap_of_idle {s : State} {n : LaneId} (h : ¬(s.smap n).swapPending = true) :
    s.cancelSwap n = s := if_neg h

theorem SlotMap.eq_of_not_pending {m : SlotMap} (h : m.swapPending = false) : m = { m with swapPending := false } := by
  rw [← h]

theorem State.smap_cancelSwap_self (s : State) (n : LaneId) :
    (s.cancelSwap n).smap n = { s.smap n with swapPending := false } := by
  simp only [State.cancelSwap]
  split
  · rw [State.smap_post, State.smap_dropSwap_self]
  · rename_i h
    exact SlotMap.eq_of_not_pending (Bool.eq_false_of_not_eq_true h)

theorem State.smap_cancelSwap_of_ne (s : State) {n m : LaneId} (h : m ≠ n) : (s.cancelSwap n).smap m = s.smap m := by
  simp only [State.cancelSwap]
  split
  · rw [State.smap_post, State.smap_dropSwap_of_ne s h]
  · rfl

theorem State.sameButSeats_cancelSwap (s : State) (n : LaneId) (r : RingId) :
    (s.ring r).SameButSeats ((s.cancelSwap n).ring r) := by
  simp only [State.cancelSwap]
  split
  · exact s.sameButSeats_dropSwap n r
  · rfl

theorem State.seat_cancelSwap (s : State) (n : LaneId) (r : RingId) (side : Side) :
    ((s.cancelSwap n).ring r).seat side =
      if (s.smap n).swapPending = true ∧ (s.ring r).seat side = .reserved n then .free else (s.ring r).seat side := by
  simp only [State.cancelSwap]
  split
  · rename_i h
    rw [State.ring_post, State.seat_dropSwap]
    simp only [h, true_and]
  · rename_i h
    rw [if_neg fun hboth => h hboth.1]

theorem State.smap_enterOff_self (s : State) (n : LaneId) :
    (s.enterOff n).smap n = { s.smap n with swapPending := false } :=
  State.smap_cancelSwap_self _ n

theorem State.smap_enterOff_of_ne (s : State) {n m : LaneId} (h : m ≠ n) : (s.enterOff n).smap m = s.smap m :=
  State.smap_cancelSwap_of_ne _ h

theorem State.sameButSeats_enterOff (s : State) (n : LaneId) (r : RingId) :
    (s.ring r).SameButSeats ((s.enterOff n).ring r) :=
  State.sameButSeats_cancelSwap _ n r

theorem State.seat_enterOff (s : State) (n : LaneId) (r : RingId) (side : Side) :
    ((s.enterOff n).ring r).seat side =
      if (s.smap n).swapPending = true ∧ (s.ring r).seat side = .reserved n then .free else (s.ring r).seat side :=
  State.seat_cancelSwap _ n r side

theorem State.lanes_enterOff (s : State) (n : LaneId) : (s.enterOff n).lanes = (s.setLane n (s.lane n).toOff).lanes := by
  rw [State.enterOff_frame]

/-- Settles O25: the lane's record is `toOff` of it, and the rest is what `cancelSwap` does. -/
theorem entryToOffReleasesTheLane : Obligations.EntryToOffReleasesTheLane := by
  intro s n
  dsimp only
  rw [State.lane_enterOff_self]
  exact ⟨by rw [State.lanes_enterOff]; exact s.enterOff_frame n, fun m hm => s.lane_enterOff_of_ne hm, fun m hm => s.smap_enterOff_of_ne hm,
    s.smap_enterOff_self n, rfl, rfl, rfl, rfl, rfl, rfl, rfl, rfl, rfl, rfl, rfl, rfl, rfl, rfl, rfl, rfl, rfl,
    fun r side => ⟨s.sameButSeats_enterOff n r, s.seat_enterOff n r side⟩⟩

/-! ## LANE_STOP and LANE_ABORT (R51 to R53) -/

theorem exec_laneStop (s : State) : exec .laneStop s = .next (arrive 0x32 laneStopOwner s) := rfl
theorem exec_laneAbort (s : State) : exec .laneAbort s = .next (arrive 0x33 laneAbortOwner s) := rfl

theorem laneStopOwner_of_lane {s : State} {n : LaneId} (h : s.win.arg0.toNat = n.val) :
    laneStopOwner s = match (s.lane n).state with
      | .running => (s.setLane n { s.lane n with state := .stopping }, .plain .accepted)
      | .arming => (s.enterOff n, .plain .done)
      | .hunt => (s.enterOff n, .plain .done)
      | .stopping => (s, .plain .already)
      | .off => (s, .plain .laneState) := (onLane_of_lane _ h).trans (by rfl)

theorem laneAbortOwner_of_lane {s : State} {n : LaneId} (h : s.win.arg0.toNat = n.val) :
    laneAbortOwner s = if (s.lane n).state = .off then (s, .plain .laneState) else (s.enterOff n, .plain .done) :=
  onLane_of_lane _ h

/-- An owner whose effect does not touch the window: its effect on the state before, and the answer. -/
theorem next_arrive_of_effect {code : Word} {owner : Owner} {s u : State} {a : Answer} (h : s.Accepts)
    (ho : (owner (s.setCmd code)).1 = { u with win := (s.setCmd code).win }) (ha : (owner (s.setCmd code)).2 = a)
    (hu : u.win = s.win) : (Host.Outcome.next (arrive code owner s) : Outcome) = .next (u.onlyAnswered code a) := by
  rw [arrive_of_accepts h, ho, ha, State.onlyAnswered, hu]
  rfl

/-- Entry to OFF reads and writes no window register. -/
theorem State.enterOff_setCmd (s : State) (code : Word) (n : LaneId) :
    (s.setCmd code).enterOff n = { s.enterOff n with win := (s.setCmd code).win } := by
  by_cases hpending : (s.smap n).swapPending = true
  · rw [State.enterOff, State.enterOff, State.cancelSwap_of_pending (s := (s.setCmd code).setLane n _) hpending,
      State.cancelSwap_of_pending (s := s.setLane n _) hpending]
    rfl
  · rw [State.enterOff, State.enterOff, State.cancelSwap_of_idle (s := (s.setCmd code).setLane n _) hpending,
      State.cancelSwap_of_idle (s := s.setLane n _) hpending]
    rfl

theorem State.win_enterOff (s : State) (n : LaneId) : (s.enterOff n).win = s.win := by
  rw [State.enterOff_frame]

/-- A command that takes a lane to OFF. -/
theorem next_arrive_of_enterOff {code : Word} {owner : Owner} {s : State} {n : LaneId} (h : s.Accepts)
    (ho : owner (s.setCmd code) = ((s.setCmd code).enterOff n, .plain .done)) :
    (Host.Outcome.next (arrive code owner s) : Outcome) = .next ((s.enterOff n).onlyAnswered code (.plain .done)) :=
  next_arrive_of_effect h (by rw [ho, State.enterOff_setCmd]) (by rw [ho]) (s.win_enterOff n)

/-- Settles O26: the lane's state decides. -/
theorem laneStopAndAbortActByState : Obligations.LaneStopAndAbortActByState := by
  refine ⟨fun s hs => ⟨fun h => ?stopBad, fun n hn => ?stop⟩, fun s hs => ⟨fun h => ?abortBad, fun n hn => ?abort⟩⟩
  case stopBad =>
    rw [exec_laneStop]
    exact next_arrive_of_unchanged hs (onLane_of_badLane _ h)
  case abortBad =>
    rw [exec_laneAbort]
    exact next_arrive_of_unchanged hs (onLane_of_badLane _ h)
  case stop =>
    rw [exec_laneStop]
    have howner := laneStopOwner_of_lane (s := s.setCmd 0x32) hn
    rw [State.lane_setCmd] at howner
    refine ⟨fun hrunning => ?_, fun hleft => ?_, fun hstopping => ?_, fun hoff => ?_⟩
    · rw [hrunning] at howner
      exact next_arrive_of_effect (u := s.setLane n { s.lane n with state := .stopping }) hs (by rw [howner]; rfl)
        (by rw [howner]) rfl
    · rcases hleft with harming | hhunt
      · rw [harming] at howner
        exact next_arrive_of_enterOff hs howner
      · rw [hhunt] at howner
        exact next_arrive_of_enterOff hs howner
    · rw [hstopping] at howner
      exact next_arrive_of_unchanged hs howner
    · rw [hoff] at howner
      exact next_arrive_of_unchanged hs howner
  case abort =>
    rw [exec_laneAbort]
    have howner := laneAbortOwner_of_lane (s := s.setCmd 0x33) hn
    exact ⟨fun hoff => next_arrive_of_unchanged hs (howner.trans (if_pos hoff)),
      fun hon => next_arrive_of_enterOff hs (howner.trans (if_neg hon))⟩

/-! ## LANE_SET (R46, R74) -/

/-- What LANE_SET asks of a parameter and its value (Table 3-2). -/
def LaneParamInRange (param value : Nat) : Prop :=
  ((param = 0 ∨ param = 4 ∨ param = 5 ∨ param = 6 ∨ param = 7) ∧ value ≤ 1) ∨
  (param = 1 ∧ 1 ≤ value ∧ value ≤ 32) ∨ (param = 2 ∧ (value = 8 ∨ value = 16 ∨ value = 32)) ∨
  (param = 3 ∧ value ≤ 63) ∨ (param = 8 ∧ 1 ≤ value ∧ value ≤ 4096) ∨ (param = 9 ∧ 1 ≤ value ∧ value ≤ 8) ∨
  (param = 10 ∧ value ≤ 7) ∨ (param = 11 ∧ 1 ≤ value ∧ value ≤ 255)

theorem laneParamOk_iff (param value : Nat) : laneParamOk param value = true ↔ LaneParamInRange param value := by
  unfold laneParamOk LaneParamInRange
  split
  case h_13 h0 h1 h2 h3 h4 h5 h6 h7 h8 h9 h10 h11 =>
    refine ⟨fun h => absurd h (by decide), fun h => ?_⟩
    have hsmall : param ≤ 11 := by omega
    interval_cases param <;> contradiction
  all_goals simp [or_assoc]

theorem exec_laneSet (s : State) : exec .laneSet s = .next (arrive 0x30 laneSetOwner s) := rfl

theorem laneSetOwner_badParam {s : State}
    (h : 4 ≤ s.win.arg0.toNat ∨ ¬LaneParamInRange s.win.arg1.toNat s.win.arg2.toNat) :
    laneSetOwner s = (s, .plain .badParam) := by
  by_cases hlane : 4 ≤ s.win.arg0.toNat
  · simp [laneSetOwner, laneArg_eq_none hlane]
  · have hbad := h.resolve_left hlane
    rw [← laneParamOk_iff] at hbad
    have harg : laneArg s.win.arg0 = some ⟨s.win.arg0.toNat, Nat.not_le.mp hlane⟩ := laneArg_eq_some rfl
    simp only [laneSetOwner, harg]
    exact if_pos (by simpa using hbad)

theorem laneSetOwner_of_inRange {s : State} {n : LaneId} (h : s.win.arg0.toNat = n.val)
    (hin : LaneParamInRange s.win.arg1.toNat s.win.arg2.toNat) :
    laneSetOwner s =
      if (s.lane n).state ≠ .off then (s, .plain .laneState)
      else if paramMovesSeats s.win.arg1.toNat && (s.laneHasSeat n || (s.smap n).swapPending) then
        (s, .plain .laneState)
      else (s.putParam n s.win.arg1.toNat s.win.arg2.toNat, .plain .done) := by
  rw [← laneParamOk_iff] at hin
  simp only [laneSetOwner, laneArg_eq_some h]
  exact if_neg (by simp [hin])

theorem paramMovesSeats_iff (param : Nat) : paramMovesSeats param = true ↔ param = 1 ∨ param = 2 := by
  simp [paramMovesSeats]

theorem Seat.ofLane_iff (seat : Seat) (n : LaneId) :
    seat.ofLane n = true ↔ seat = .held (.lane n) ∨ seat = .reserved n := by
  simp [Seat.ofLane]

/-- The lane holds or has reserved a seat of some ring (R46). -/
theorem State.laneHasSeat_iff (s : State) (n : LaneId) :
    s.laneHasSeat n = true ↔ ∃ r side, (s.ring r).seat side = .held (.lane n) ∨ (s.ring r).seat side = .reserved n := by
  simp only [State.laneHasSeat, List.any_eq_true, Vector.mem_toList_iff, Bool.or_eq_true, Seat.ofLane_iff]
  rw [s.exists_mem_rings_iff]
  refine exists_congr fun r => ⟨fun h => ?_, ?_⟩
  · rcases h with hproducer | hconsumer
    · exact ⟨.producer, hproducer⟩
    · exact ⟨.consumer, hconsumer⟩
  · rintro ⟨side, h⟩
    cases side with
    | producer => exact .inl h
    | consumer => exact .inr h

/-- Each parameter takes one field. -/
theorem LaneConfig.put_eq (c : LaneConfig) (param value : Nat) :
    c.put param value =
      { role := if param = 0 then (if value = 1 then .master else .follower) else c.role,
        slots := if param = 1 then value else c.slots,
        width := if param = 2 then value else c.width,
        gap := if param = 3 then value else c.gap,
        syncForm := if param = 4 then (if value = 1 then .slot else .pulse) else c.syncForm,
        syncEarly := if param = 5 then value == 1 else c.syncEarly,
        bitOrder := if param = 6 then (if value = 1 then .lsbFirst else .msbFirst) else c.bitOrder,
        clockEdge := if param = 7 then (if value = 1 then .driveFall else .driveRise) else c.clockEdge,
        divisor := if param = 8 then value else c.divisor,
        relock := if param = 9 then value else c.relock,
        flywheel := if param = 10 then value else c.flywheel,
        watch := if param = 11 then value else c.watch } := by
  unfold LaneConfig.put
  split
  case h_13 h0 h1 h2 h3 h4 h5 h6 h7 h8 h9 h10 h11 =>
    rw [if_neg h0, if_neg h1, if_neg h2, if_neg h3, if_neg h4, if_neg h5, if_neg h6, if_neg h7, if_neg h8, if_neg h9,
      if_neg h10, if_neg h11]
  all_goals rfl

theorem Bank.getElem_raised (b : Bank) (old new : Nat) (i : Fin 32) :
    (Bank.raised b old new)[i] = if old ≤ i.val ∧ i.val < new then b[i].unnamed else b[i] := by
  simp [Bank.raised]

@[simp] theorem State.lane_putParam_self (s : State) (n : LaneId) (param value : Nat) :
    (s.putParam n param value).lane n = { s.lane n with cfg := (s.lane n).cfg.put param value } := by
  simp only [State.putParam]
  split
  · simp [State.slotsChanged]
  · simp

theorem State.lane_putParam_of_ne (s : State) {n m : LaneId} (param value : Nat) (h : m ≠ n) :
    (s.putParam n param value).lane m = s.lane m := by
  simp only [State.putParam]
  split
  · simp [State.slotsChanged, h]
  · simp [h]

/-- Only a change of SLOTS reaches the slot map (R74). -/
theorem State.smap_putParam_self (s : State) (n : LaneId) (param value : Nat) :
    (s.putParam n param value).smap n =
      if param = 1 then (s.smap n).setLive (Bank.raised (s.smap n).liveBank (s.lane n).cfg.slots value)
      else s.smap n := by
  simp only [State.putParam]
  split
  · simp [State.slotsChanged]
  · rfl

theorem State.smap_putParam_of_ne (s : State) {n m : LaneId} (param value : Nat) (h : m ≠ n) :
    (s.putParam n param value).smap m = s.smap m := by
  simp only [State.putParam]
  split
  · simp [State.slotsChanged, h]
  · rfl

theorem State.putParam_frame (s : State) (n : LaneId) (param value : Nat) :
    s.putParam n param value =
      { s with lanes := (s.putParam n param value).lanes, maps := (s.putParam n param value).maps } := by
  simp only [State.putParam]
  split <;> rfl

/-- Settles O23: the operands, the lane's state and its seats decide in turn; an accepted LANE_SET puts one parameter,
and a raise of SLOTS rewrites the live bank. -/
theorem laneSetChecksAndWritesOneParameter : Obligations.LaneSetChecksAndWritesOneParameter := by
  intro s hs
  dsimp only
  rw [exec_laneSet]
  refine ⟨fun h => next_arrive_of_unchanged hs (laneSetOwner_badParam h), fun n hn hin => ?_⟩
  have howner := laneSetOwner_of_inRange (s := s.setCmd 0x30) hn hin
  rw [← State.laneHasSeat_iff]
  refine ⟨fun hon => ?on, fun hoff hmoves hbound => ?bound, fun hoff hfree => ?accepted⟩
  case on => exact next_arrive_of_unchanged hs (howner.trans (if_pos hon))
  case bound =>
    have hrefused : (paramMovesSeats s.win.arg1.toNat && (s.laneHasSeat n || (s.smap n).swapPending)) = true := by
      rw [(paramMovesSeats_iff _).mpr hmoves, Bool.true_and, Bool.or_eq_true]
      exact hbound
    exact next_arrive_of_unchanged hs (howner.trans ((if_neg (not_not_intro hoff)).trans (if_pos hrefused)))
  case accepted =>
    have haccepted : ¬(paramMovesSeats s.win.arg1.toNat && (s.laneHasSeat n || (s.smap n).swapPending)) = true := by
      intro hboth
      obtain ⟨hmoves, hbound⟩ := Bool.and_eq_true_iff.mp hboth
      obtain ⟨hseat, hpending⟩ := hfree ((paramMovesSeats_iff _).mp hmoves)
      simp [hseat, hpending] at hbound
    have hdone := howner.trans ((if_neg (not_not_intro hoff)).trans (if_neg haccepted))
    refine ⟨_, rfl, ?_⟩
    rw [arrive_of_accepts hs, hdone]
    simp only [State.lane_answer, State.smap_answer, State.lane_putParam_self, State.smap_putParam_self,
      State.lane_setCmd, State.smap_setCmd, State.arg1_setCmd, State.arg2_setCmd]
    refine ⟨?frame, fun m hm => ?lanes, fun m hm => ?maps, trivial, (s.lane n).cfg.put_eq _ _, ?live, ?pending, ?edit,
      fun i => ?liveBank⟩
    case frame => rw [State.putParam_frame]; rfl
    case lanes => exact State.lane_putParam_of_ne _ _ _ hm
    case maps => exact State.smap_putParam_of_ne _ _ _ hm
    case live => split <;> simp
    case pending => split <;> simp
    case edit => split <;> simp
    case liveBank =>
      split
      · rename_i h1
        simp only [h1, true_and, SlotMap.liveBank_setLive, Bank.getElem_raised]
        rfl
      · rename_i h1
        exact (if_neg fun hboth => h1 hboth.1).symm

end Sys2Proof.Machine
end

section
/-! PROOFS. The map commands: edits, MAP_READ, and MAP_SWAP with its validation, reservation and exchange (R34 to R41,
R76 to R88). -/

namespace Sys2Proof.Machine

/-! ## Edits (R76 to R80) -/

theorem txKindArg_eq_some {w : Word} (h : w.toNat % 4 ≠ 3) :
    txKindArg w = some (if w.toNat % 4 = 0 then .quiet else if w.toNat % 4 = 1 then .const else .ring) := by
  have hcases : w.toNat % 4 = 0 ∨ w.toNat % 4 = 1 ∨ w.toNat % 4 = 2 := by omega
  rcases hcases with h0 | h1 | h2
  · simp [txKindArg, h0]
  · simp [txKindArg, h1]
  · simp [txKindArg, h2]

/-- RxKind is bit 0 of the receive word (Table 8-4). -/
theorem rxKindArg_eq (w : Word) : rxKindArg w = if w.toNat % 2 = 1 then .ring else .ignore := by
  have hbit : w.getLsbD 0 = decide (w.toNat % 2 = 1) := by
    rw [← BitVec.testBit_toNat, Nat.testBit_zero]
  simp only [rxKindArg, hbit, decide_eq_true_eq]

/-- The bank that each edit command writes, on a lane with no swap pending. -/
def editedBank (s : State) (n : LaneId) : Instr → Bank
  | .mapClear => Vector.replicate 32 .reset
  | .mapCopy => (s.smap n).liveBank
  | .mapConst =>
    (s.smap n).editBank.mapFinIdx fun i e _ =>
      if s.win.arg1.toNat = i then
        { e with const := lowBits (s.lane n).cfg.width (cellOf s.win.arg3 s.win.arg2) }
      else e
  | _ =>
    (s.smap n).editBank.mapFinIdx fun i e _ =>
      if s.win.arg1.toNat = i then
        e.written (if s.win.arg2.toNat % 4 = 0 then .quiet else if s.win.arg2.toNat % 4 = 1 then .const else .ring)
          s.win.arg2 s.win.arg3
      else e

/-- One entry set is the entry changed at its index. -/
theorem Bank.set_eq_mapFinIdx (b : Bank) (slot : Fin 32) (f : SlotEntry → SlotEntry) :
    b.set slot.val (f b[slot.val]) = b.mapFinIdx fun i e _ => if slot.val = i then f e else e := by
  refine Vector.ext fun i hi => ?_
  rw [Vector.getElem_set, Vector.getElem_mapFinIdx]
  split
  · rename_i h; subst h; rfl
  · rfl

theorem State.editEntry_eq (s : State) (n : LaneId) (slot : Fin 32) (f : SlotEntry → SlotEntry) :
    s.editEntry n slot f =
      s.setSmap n ((s.smap n).setEdit ((s.smap n).editBank.mapFinIdx fun i e _ => if slot.val = i then f e else e)) := by
  rw [State.editEntry, Bank.set_eq_mapFinIdx]

theorem mapWriteOwner_of_slot {s : State} {n : LaneId} {slot : Fin 32} {tx : TxKind} (hn : s.win.arg0.toNat = n.val)
    (hslot : s.win.arg1.toNat = slot.val) (hkind : txKindArg s.win.arg2 = some tx) :
    mapWriteOwner s =
      if (s.smap n).swapPending then (s, .plain .swapPending)
      else (s.editEntry n slot fun e => e.written tx s.win.arg2 s.win.arg3, .plain .done) := by
  rw [mapWriteOwner, onLane_of_lane _ hn]
  simp only [slotArg_eq_some hslot, hkind]

theorem mapConstOwner_of_slot {s : State} {n : LaneId} {slot : Fin 32} (hn : s.win.arg0.toNat = n.val)
    (hslot : s.win.arg1.toNat = slot.val) :
    mapConstOwner s =
      if (s.smap n).swapPending then (s, .plain .swapPending)
      else (s.editEntry n slot fun e =>
        { e with const := lowBits (s.lane n).cfg.width (cellOf s.win.arg3 s.win.arg2) }, .plain .done) := by
  rw [mapConstOwner, onLane_of_lane _ hn]
  simp only [slotArg_eq_some hslot]

/-- Each edit command with its operands in range sets the edit bank to `editedBank`. -/
theorem exec_edit {c : Instr} {code : Word} {s : State} {n : LaneId} (hcode : windowCode c = some code)
    (hc : c ∈ [Instr.mapWrite, .mapConst, .mapClear, .mapCopy]) (hn : s.win.arg0.toNat = n.val)
    (hslot : c = .mapWrite ∨ c = .mapConst → s.win.arg1.toNat < 32)
    (hkind : c = .mapWrite → s.win.arg2.toNat % 4 ≠ 3) :
    ∃ owner : Owner, exec c s = .next (arrive code owner s) ∧
      owner (s.setCmd code) =
        if (s.smap n).swapPending then (s.setCmd code, .plain .swapPending)
        else ((s.setCmd code).setSmap n ((s.smap n).setEdit (editedBank s n c)), .plain .done) := by
  simp only [List.mem_cons, List.not_mem_nil, or_false] at hc
  rcases hc with rfl | rfl | rfl | rfl
  · cases hcode
    have howner := mapWriteOwner_of_slot (s := s.setCmd 0x40) (slot := ⟨s.win.arg1.toNat, hslot (.inl rfl)⟩) hn rfl
      (txKindArg_eq_some (hkind rfl))
    rw [State.editEntry_eq] at howner
    exact ⟨_, rfl, howner⟩
  · cases hcode
    have howner := mapConstOwner_of_slot (s := s.setCmd 0x41) (slot := ⟨s.win.arg1.toNat, hslot (.inr rfl)⟩) hn rfl
    rw [State.editEntry_eq] at howner
    exact ⟨_, rfl, howner⟩
  · cases hcode
    exact ⟨_, rfl, onLane_of_lane _ (s := s.setCmd 0x42) hn⟩
  · cases hcode
    exact ⟨_, rfl, onLane_of_lane _ (s := s.setCmd 0x43) hn⟩

/-- Each entry of the edit bank after an edit command. -/
theorem getElem_editedBank (s : State) (n : LaneId) {c : Instr}
    (hc : c ∈ [Instr.mapWrite, .mapConst, .mapClear, .mapCopy]) (i : Fin 32) :
    (editedBank s n c)[i] =
      if c = .mapClear then ⟨.quiet, 0, 0, .ignore, 0, false⟩
      else if c = .mapCopy then (s.smap n).liveBank[i]
      else if s.win.arg1.toNat ≠ i.val then (s.smap n).editBank[i]
      else if c = .mapConst then
        { (s.smap n).editBank[i] with
          const := BitVec.ofNat 32 ((s.win.arg3.toNat * 65536 + s.win.arg2.toNat) % 2 ^ (s.lane n).cfg.width) }
      else
        { txKind := if s.win.arg2.toNat % 4 = 0 then .quiet
            else if s.win.arg2.toNat % 4 = 1 then .const else .ring,
          txRing := ringField s.win.arg2, const := (s.smap n).editBank[i].const,
          rxKind := if s.win.arg3.toNat % 2 = 1 then .ring else .ignore,
          rxRing := ringField s.win.arg3, mark := s.win.arg3.getLsbD 8 } := by
  simp only [List.mem_cons, List.not_mem_nil, or_false] at hc
  rcases hc with rfl | rfl | rfl | rfl
  · by_cases hi : s.win.arg1.toNat = i.val
    · simp [editedBank, hi, SlotEntry.written, rxKindArg_eq]
    · simp [editedBank, hi]
  · by_cases hi : s.win.arg1.toNat = i.val
    · simp [editedBank, hi, lowBits, toNat_cellOf]
    · simp [editedBank, hi]
  · simp [editedBank, SlotEntry.reset]
  · simp [editedBank]

/-- Settles O27: every edit command sets the edit bank of its lane, once no swap is pending. -/
theorem editCommandsChangeTheEditBank : Obligations.EditCommandsChangeTheEditBank := by
  intro s n c code hs hn hcode hc hslot hkind
  obtain ⟨owner, hexec, howner⟩ := exec_edit hcode hc hn hslot hkind
  rw [hexec]
  refine ⟨fun hpending => next_arrive_of_unchanged hs (howner.trans (if_pos hpending)), fun hidle => ?_⟩
  have hdone := howner.trans (if_neg (Bool.not_eq_true _ ▸ hidle))
  refine ⟨_, rfl, ?_⟩
  rw [arrive_of_accepts hs, hdone]
  refine ⟨rfl, fun m hm => ?_, ?_⟩
  · rw [State.smap_answer, State.smap_setSmap_of_ne _ _ _ _ hm, State.smap_setCmd]
  · rw [State.smap_answer, State.smap_setSmap_self]
    refine ⟨SlotMap.live_setEdit _ _, (SlotMap.swapPending_setEdit _ _).trans hidle, SlotMap.liveBank_setEdit _ _,
      fun i => ?_⟩
    rw [← getElem_editedBank s n hc i, SlotMap.editBank_setEdit]

/-! ## MAP_READ (R81, R156) -/

theorem exec_mapRead (s : State) : exec .mapRead s = .next (arrive 0x44 mapReadOwner s) := rfl
theorem exec_mapWrite (s : State) : exec .mapWrite s = .next (arrive 0x40 mapWriteOwner s) := rfl

theorem mapReadOwner_of_inRange {s : State} {n : LaneId} {slot : Fin 32} (hn : s.win.arg0.toNat = n.val)
    (hslot : s.win.arg2.toNat = slot.val) (hbank : s.win.arg1.toNat ≤ 1) (hpart : s.win.arg3.toNat ≤ 1) :
    mapReadOwner s = (s,
      let e := if s.win.arg1.toNat = 0 then (s.smap n).liveBank[slot] else (s.smap n).editBank[slot]
      if s.win.arg3.toNat = 1 then ⟨.done, loHalf e.const, hiHalf e.const⟩ else ⟨.done, e.txWord, e.rxWord⟩) := by
  have hcases : s.win.arg1.toNat = 0 ∨ s.win.arg1.toNat = 1 := by omega
  rw [mapReadOwner, onLane_of_lane _ hn]
  simp only [flagArg_eq_some hbank, slotArg_eq_some hslot, flagArg_eq_some hpart, decide_eq_true_eq]
  rcases hcases with h0 | h1
  · simp [h0]
  · simp [h1]

theorem TxKind.code_lt (k : TxKind) : k.code < 3 := by cases k <;> decide
theorem RxKind.code_lt (k : RxKind) : k.code < 2 := by cases k <;> decide

theorem SlotEntry.toNat_txWord (e : SlotEntry) : e.txWord.toNat = e.txKind.code + 16 * e.txRing.val := by
  have hkind := e.txKind.code_lt
  have hring := e.txRing.isLt
  simp only [SlotEntry.txWord, BitVec.toNat_ofNat]
  omega

theorem SlotEntry.toNat_rxWord (e : SlotEntry) :
    e.rxWord.toNat = e.rxKind.code + 16 * e.rxRing.val + 256 * e.mark.toNat := by
  have hkind := e.rxKind.code_lt
  have hring := e.rxRing.isLt
  have hmark := e.mark.toNat_lt
  simp only [SlotEntry.rxWord, boolNat_eq_toNat, BitVec.toNat_ofNat]
  omega

theorem txKindArg_txWord (e : SlotEntry) : txKindArg e.txWord = some e.txKind := by
  have hword := e.toNat_txWord
  cases hkind : e.txKind with
  | quiet =>
    rw [hkind, TxKind.code] at hword
    rw [txKindArg_eq_some (by omega), if_pos (by omega)]
  | const =>
    rw [hkind, TxKind.code] at hword
    rw [txKindArg_eq_some (by omega), if_neg (by omega), if_pos (by omega)]
  | ring =>
    rw [hkind, TxKind.code] at hword
    rw [txKindArg_eq_some (by omega), if_neg (by omega), if_neg (by omega)]

theorem rxKindArg_rxWord (e : SlotEntry) : rxKindArg e.rxWord = e.rxKind := by
  have hword := e.toNat_rxWord
  cases hkind : e.rxKind with
  | ignore =>
    rw [hkind, RxKind.code] at hword
    rw [rxKindArg_eq, if_neg (by omega)]
  | ring =>
    rw [hkind, RxKind.code] at hword
    rw [rxKindArg_eq, if_pos (by omega)]

theorem ringField_txWord (e : SlotEntry) : ringField e.txWord = e.txRing := by
  have hkind := e.txKind.code_lt
  have hring := e.txRing.isLt
  apply Fin.ext
  simp only [ringField, SlotEntry.toNat_txWord]
  omega

theorem ringField_rxWord (e : SlotEntry) : ringField e.rxWord = e.rxRing := by
  have hkind := e.rxKind.code_lt
  have hring := e.rxRing.isLt
  apply Fin.ext
  simp only [ringField, SlotEntry.toNat_rxWord]
  omega

theorem getLsbD_rxWord_mark (e : SlotEntry) : e.rxWord.getLsbD 8 = e.mark := by
  have hkind := e.rxKind.code_lt
  have hring := e.rxRing.isLt
  have hmark := e.mark.toNat_lt
  rw [← BitVec.testBit_toNat, e.toNat_rxWord, Nat.testBit_eq_decide_div_mod_eq]
  have hquot : (e.rxKind.code + 16 * e.rxRing.val + 256 * e.mark.toNat) / 2 ^ 8 % 2 = e.mark.toNat := by omega
  rw [hquot]
  cases e.mark <;> rfl

/-- An entry written with its own words is the entry. -/
theorem SlotEntry.written_self (e : SlotEntry) : e.written e.txKind e.txWord e.rxWord = e := by
  simp only [SlotEntry.written, ringField_txWord, rxKindArg_rxWord, ringField_rxWord, getLsbD_rxWord_mark]

theorem SlotMap.setEdit_editBank (m : SlotMap) : m.setEdit m.editBank = m := by
  obtain ⟨live, _, _, _⟩ := m
  cases live <;> rfl

/-- MAP_WRITE with the words of the entry that stands in the edit bank changes no map. -/
theorem mapWriteOwner_own_words {s : State} {n : LaneId} {slot : Fin 32} (hn : s.win.arg0.toNat = n.val)
    (hslot : s.win.arg1.toNat = slot.val) (htx : s.win.arg2 = (s.smap n).editBank[slot].txWord)
    (hrx : s.win.arg3 = (s.smap n).editBank[slot].rxWord) (hidle : (s.smap n).swapPending = false) :
    mapWriteOwner s = (s, .plain .done) := by
  have hkind : txKindArg s.win.arg2 = some (s.smap n).editBank[slot].txKind := by rw [htx, txKindArg_txWord]
  have hsame : (s.smap n).editBank.set slot.val (((s.smap n).editBank[slot.val]).written
      (s.smap n).editBank[slot].txKind s.win.arg2 s.win.arg3) = (s.smap n).editBank := by
    rw [htx, hrx]
    have hself := SlotEntry.written_self (s.smap n).editBank[slot]
    rw [Fin.getElem_fin] at hself ⊢
    rw [hself, Vector.set_getElem_self]
  rw [mapWriteOwner_of_slot hn hslot hkind, if_neg (by simp [hidle]), State.editEntry, hsame, SlotMap.setEdit_editBank,
    State.setSmap_smap]

theorem exec_mapWrite_own_words {s : State} {n : LaneId} {slot : Fin 32} (hs : s.Accepts)
    (hn : s.win.arg0.toNat = n.val) (hslot : s.win.arg1.toNat = slot.val)
    (htx : s.win.arg2 = (s.smap n).editBank[slot].txWord) (hrx : s.win.arg3 = (s.smap n).editBank[slot].rxWord)
    (hidle : (s.smap n).swapPending = false) :
    exec .mapWrite s = .next (s.onlyAnswered 0x40 (.plain .done)) := by
  rw [exec_mapWrite]
  exact next_arrive_of_unchanged hs (mapWriteOwner_own_words (s := s.setCmd 0x40) hn hslot htx hrx hidle)

/-- Settles O28: MAP_READ answers the halves or the words of the entry, and the words name its fields. -/
theorem mapReadAnswersTheEntry : Obligations.MapReadAnswersTheEntry := by
  intro s n slot hs hn hslot hbank hpart
  dsimp only
  rw [exec_mapRead]
  have howner := mapReadOwner_of_inRange (s := s.setCmd 0x44) hn hslot hbank hpart
  refine ⟨fun hconst => ?_, fun hfields => ?_⟩
  · simp only [State.arg3_setCmd, hconst, if_true] at howner
    rw [← loHalf_eq_mod]
    exact next_arrive_of_unchanged hs howner
  · have hpart : ¬s.win.arg3.toNat = 1 := by omega
    simp only [State.arg3_setCmd, hpart, if_false] at howner
    refine ⟨_, _, next_arrive_of_unchanged hs howner, SlotEntry.toNat_txWord _, SlotEntry.toNat_rxWord _,
      fun hedit hidle => ?_⟩
    have hbank : ¬s.win.arg1.toNat = 0 := by omega
    have hslotWord : (BitVec.ofNat 16 slot.val).toNat = slot.val := by
      have := slot.isLt
      simp only [BitVec.toNat_ofNat]
      omega
    exact ⟨_, exec_mapWrite_own_words (n := n) (slot := slot) hs hn hslotWord (congrArg SlotEntry.txWord (if_neg hbank))
      (congrArg SlotEntry.rxWord (if_neg hbank)) hidle, rfl, rfl⟩

end Sys2Proof.Machine
end

section
/-! PROOFS. MAP_SWAP: the first entry that fails its tests, the seats that an accepted swap reserves, and the exchange
(R34 to R41, R82 to R88). -/

namespace Sys2Proof.Machine

/-! ## Validation in slot order (R83) -/

/-- The first of an entry's two tests that fails, with its direction: transmit is 0, receive is 1. -/
def State.firstFailure (s : State) (n : LaneId) (e : SlotEntry) : Option (Result × Word) :=
  match s.entryTest n .consumer e with
  | some code => some (code, 0)
  | none => (s.entryTest n .producer e).map fun code => (code, 1)

theorem State.firstFailure_eq_none_iff (s : State) (n : LaneId) (e : SlotEntry) :
    s.firstFailure n e = none ↔ s.entryTest n .consumer e = none ∧ s.entryTest n .producer e = none := by
  unfold State.firstFailure
  split
  · rename_i h; simp [h]
  · rename_i h; simp [h]

theorem State.validateFrom_cons_of_passing {s : State} {n : LaneId} {e : SlotEntry} (h : s.firstFailure n e = none)
    (slot : Nat) (rest : List SlotEntry) : s.validateFrom n slot (e :: rest) = s.validateFrom n (slot + 1) rest := by
  obtain ⟨hconsumer, hproducer⟩ := (s.firstFailure_eq_none_iff n e).mp h
  simp only [State.validateFrom, hconsumer, hproducer]

theorem State.validateFrom_cons_of_failing {s : State} {n : LaneId} {e : SlotEntry} {code : Result} {d : Word}
    (h : s.firstFailure n e = some (code, d)) (slot : Nat) (rest : List SlotEntry) :
    s.validateFrom n slot (e :: rest) = some (code, BitVec.ofNat 16 slot, d) := by
  unfold State.firstFailure at h
  split at h
  · rename_i hconsumer
    cases h
    simp only [State.validateFrom, hconsumer]
  · rename_i hconsumer
    obtain ⟨_, hproducer, hpair⟩ := Option.map_eq_some_iff.mp h
    cases hpair
    simp only [State.validateFrom, hconsumer, hproducer]

/-- The answer names the first entry that fails. -/
theorem State.validateFrom_of_first_failure {s : State} {n : LaneId} {es : List SlotEntry} {k : Nat} {e : SlotEntry}
    {code : Result} {d : Word} (hbefore : ∀ j, j < k → ∀ x, es[j]? = some x → s.firstFailure n x = none)
    (he : es[k]? = some e) (hfails : s.firstFailure n e = some (code, d)) (slot : Nat) :
    s.validateFrom n slot es = some (code, BitVec.ofNat 16 (slot + k), d) := by
  induction es generalizing k slot with
  | nil => cases he
  | cons x rest ih =>
    cases k with
    | zero =>
      cases he
      exact State.validateFrom_cons_of_failing hfails slot rest
    | succ k =>
      rw [State.validateFrom_cons_of_passing (hbefore 0 (Nat.zero_lt_succ k) x rfl),
        ih (fun j hj y hy => hbefore (j + 1) (Nat.succ_lt_succ hj) y hy) he (slot + 1), Nat.add_assoc, Nat.add_comm 1 k]

theorem getElem?_counted (b : Bank) {slots : Nat} {i : Fin 32} (h : i.val < slots) : (counted b slots)[i.val]? = some b[i] := by
  simp [counted, h]

/-- Validation of a swap answers with the first counted entry that fails (R83). -/
theorem State.validateSwap_of_first_failure {s : State} {n : LaneId} {i : Fin 32} {code : Result} {d : Word}
    (hi : i.val < (s.lane n).cfg.slots)
    (hbefore : ∀ j : Fin 32, j < i → s.firstFailure n (s.smap n).editBank[j] = none)
    (hfails : s.firstFailure n (s.smap n).editBank[i] = some (code, d)) :
    s.validateSwap n = some (code, BitVec.ofNat 16 i.val, d) := by
  have hfirst := State.validateFrom_of_first_failure (es := counted (s.smap n).editBank (s.lane n).cfg.slots)
    (fun j hj x hx => ?_) (getElem?_counted _ hi) hfails 0
  · rwa [Nat.zero_add] at hfirst
  · have hj' : j < 32 := by omega
    have hget := getElem?_counted (s.smap n).editBank (i := ⟨j, hj'⟩) (show j < (s.lane n).cfg.slots by omega)
    cases hget.symm.trans hx
    exact hbefore ⟨j, hj'⟩ hj

/-! ## The tests of a named ring, as the statements write them -/

theorem SlotEntry.names_eq (e : SlotEntry) (side : Side) :
    e.names side = match side with
      | .consumer => if e.txKind = .ring then some e.txRing else none
      | .producer => if e.rxKind = .ring then some e.rxRing else none := by
  cases side <;> rfl

theorem State.namingTest_eq (s : State) (n : LaneId) (side : Side) (r : RingId) :
    s.namingTest n side r =
      if (s.ring r).state = .closed then some .badMap
      else if (s.ring r).width ≠ (s.lane n).cfg.width then some .widthMismatch
      else if (s.ring r).seat side = .free ∨ (s.ring r).seat side = .held (.lane n) then none
      else some .seatBusy := by
  simp only [State.namingTest]
  cases hstate : (s.ring r).state with
  | closed => rfl
  | opened => rfl

theorem State.entryTest_eq_none_iff (s : State) (n : LaneId) (side : Side) (e : SlotEntry) :
    s.entryTest n side e = none ↔ ∀ r, e.names side = some r → s.namingTest n side r = none := by
  unfold State.entryTest
  split
  · rename_i h; simp [h]
  · rename_i r h; simp [h]

theorem State.entryTest_of_names {s : State} {n : LaneId} {side : Side} {e : SlotEntry} {r : RingId}
    (h : e.names side = some r) : s.entryTest n side e = s.namingTest n side r := by
  simp only [State.entryTest, h]

/-- The direction of a refusal: transmit is 0, receive is 1 (R83). -/
def Side.direction : Side → Word
  | .consumer => 0
  | .producer => 1

/-- What an entry's failing side makes of its two tests. -/
theorem State.firstFailure_of_side {s : State} {n : LaneId} {e : SlotEntry} {side : Side} {code : Result}
    (hconsumer : side = .producer → s.entryTest n .consumer e = none) (hside : s.entryTest n side e = some code) :
    s.firstFailure n e = some (code, side.direction) := by
  cases side with
  | consumer => simp only [State.firstFailure, hside, Side.direction]
  | producer => simp only [State.firstFailure, hconsumer rfl, hside, Option.map_some, Side.direction]

theorem exec_mapSwap (s : State) : exec .mapSwap s = .next (arrive 0x45 mapSwapOwner s) := rfl

theorem mapSwapOwner_of_lane {s : State} {n : LaneId} (h : s.win.arg0.toNat = n.val) :
    mapSwapOwner s =
      if (s.lane n).state = .stopping then (s, .plain .laneState)
      else if (s.smap n).swapPending then (s, .plain .swapPending)
      else match s.validateSwap n with
        | some (code, slot, direction) => (s, ⟨code, slot, direction⟩)
        | none =>
          if (s.lane n).state = .off then (s.swapInOff n, .plain .done) else (s.swapLater n, .plain .accepted) :=
  (onLane_of_lane _ h).trans (by rfl)

theorem mapSwapOwner_of_invalid {s : State} {n : LaneId} {code : Result} {slot direction : Word}
    (h : s.win.arg0.toNat = n.val) (hstate : (s.lane n).state ≠ .stopping) (hidle : (s.smap n).swapPending = false)
    (hfails : s.validateSwap n = some (code, slot, direction)) : mapSwapOwner s = (s, ⟨code, slot, direction⟩) := by
  rw [mapSwapOwner_of_lane h, if_neg hstate, if_neg (by simp [hidle]), hfails]

theorem mapSwapOwner_of_valid {s : State} {n : LaneId} (h : s.win.arg0.toNat = n.val)
    (hstate : (s.lane n).state ≠ .stopping) (hidle : (s.smap n).swapPending = false)
    (hpasses : s.validateSwap n = none) :
    mapSwapOwner s =
      if (s.lane n).state = .off then (s.swapInOff n, .plain .done) else (s.swapLater n, .plain .accepted) := by
  rw [mapSwapOwner_of_lane h, if_neg hstate, if_neg (by simp [hidle]), hpasses]

/-- Settles O29: the lane's state and a pending swap come first; then validation answers with the first failing entry. -/
theorem mapSwapValidatesTheEditBank : Obligations.MapSwapValidatesTheEditBank := by
  intro s n hs hn hslots names test passes
  have hnames : ∀ i side, names i side = (s.smap n).editBank[i].names side := fun i side => by cases side <;> rfl
  have htest : ∀ r side, test r side = s.namingTest n side r := fun r side => (s.namingTest_eq n side r).symm
  have hpasses : ∀ i side, passes i side ↔ s.entryTest n side (s.smap n).editBank[i] = none := fun i side => by
    simp only [passes, hnames, htest, State.entryTest_eq_none_iff]
  simp only [hnames, htest, hpasses]
  rw [exec_mapSwap]
  have howner := mapSwapOwner_of_lane (s := s.setCmd 0x45) hn
  refine ⟨fun hstopping => ?_, fun hstate hpending => ?_, fun hstate hidle i side r code hi hbefore hconsumer hr htest => ?_⟩
  · exact next_arrive_of_unchanged hs (howner.trans (if_pos hstopping))
  · exact next_arrive_of_unchanged hs (howner.trans ((if_neg hstate).trans (if_pos hpending)))
  · have hside : s.entryTest n side (s.smap n).editBank[i] = some code := by rw [State.entryTest_of_names hr, htest]
    have hfails := State.validateSwap_of_first_failure (s := s.setCmd 0x45) hi
      (fun j hj => (s.firstFailure_eq_none_iff n _).mpr (hbefore j hj)) (State.firstFailure_of_side hconsumer hside)
    have howner := mapSwapOwner_of_invalid (s := s.setCmd 0x45) hn hstate hidle hfails
    cases side with
    | consumer => exact next_arrive_of_unchanged hs howner
    | producer => exact next_arrive_of_unchanged hs howner

/-! ## Reservation and exchange (R36, R38, R39, R86 to R88) -/

theorem State.seat_reserveSeats (s : State) (n : LaneId) (r : RingId) (side : Side) :
    ((s.reserveSeats n).ring r).seat side =
      ((s.ring r).seat side).reserveFor n (bankNames (s.smap n).editBank (s.lane n).cfg.slots side r) :=
  s.seat_mapSeats _ r side

theorem State.seat_takeSeats (s : State) (n : LaneId) (r : RingId) (side : Side) :
    ((s.takeSeats n).ring r).seat side = ((s.ring r).seat side).takeBy n := s.seat_mapSeats _ r side

theorem State.seat_releaseSeats (s : State) (n : LaneId) (r : RingId) (side : Side) :
    ((s.releaseSeats n).ring r).seat side =
      ((s.ring r).seat side).releaseBy n (bankNames (s.smap n).liveBank (s.lane n).cfg.slots side r) :=
  s.seat_mapSeats _ r side

theorem State.lane_mapSeats (s : State) (f : Side → RingId → Seat → Seat) (m : LaneId) :
    (s.mapSeats f).lane m = s.lane m := s.lane_mapRings _ m

theorem State.smap_mapSeats (s : State) (f : Side → RingId → Seat → Seat) (m : LaneId) :
    (s.mapSeats f).smap m = s.smap m := s.smap_mapRings _ m

theorem State.lane_takeSeats (s : State) (n m : LaneId) : (s.takeSeats n).lane m = s.lane m := s.lane_mapSeats _ m
theorem State.smap_takeSeats (s : State) (n m : LaneId) : (s.takeSeats n).smap m = s.smap m := s.smap_mapSeats _ m
theorem State.smap_releaseSeats (s : State) (n m : LaneId) : (s.releaseSeats n).smap m = s.smap m := s.smap_mapSeats _ m
theorem State.lane_reserveSeats (s : State) (n m : LaneId) : (s.reserveSeats n).lane m = s.lane m := s.lane_mapSeats _ m
theorem State.smap_reserveSeats (s : State) (n m : LaneId) : (s.reserveSeats n).smap m = s.smap m := s.smap_mapSeats _ m

/-- The exchange takes the reserved seats and releases those that the new live bank does not name. -/
theorem State.seat_exchange (s : State) (n : LaneId) (frame : Option Word) (r : RingId) (side : Side) :
    ((s.exchange n frame).ring r).seat side =
      (((s.ring r).seat side).takeBy n).releaseBy n
        (bankNames (s.smap n).editBank (s.lane n).cfg.slots side r) := by
  simp only [State.exchange, State.ring_post, State.ring_setSmap, State.seat_releaseSeats, State.seat_takeSeats,
    State.smap_takeSeats, State.lane_takeSeats, State.smap_setSmap_self, State.lane_setSmap, SlotMap.liveBank_swapLive]

theorem State.sameButSeats_exchange (s : State) (n : LaneId) (frame : Option Word) (r : RingId) :
    (s.ring r).SameButSeats ((s.exchange n frame).ring r) := by
  simp only [State.exchange, State.ring_post, State.ring_setSmap]
  have htaken := (s.setSmap n (s.smap n).swapLive).sameButSeats_takeSeats n r
  rw [State.ring_setSmap] at htaken
  exact htaken.trans (State.sameButSeats_releaseSeats _ n r)

theorem State.smap_exchange_self (s : State) (n : LaneId) (frame : Option Word) :
    (s.exchange n frame).smap n = { s.smap n with live := (s.smap n).live.other, swapPending := false } := by
  simp only [State.exchange, State.smap_post, State.smap_setSmap_self, State.smap_releaseSeats, State.smap_takeSeats,
    SlotMap.swapLive]

theorem State.smap_exchange_of_ne (s : State) {n m : LaneId} (frame : Option Word) (h : m ≠ n) :
    (s.exchange n frame).smap m = s.smap m := by
  simp only [State.exchange, State.smap_post, State.smap_setSmap_of_ne _ _ _ _ h, State.smap_releaseSeats,
    State.smap_takeSeats]

/-- A seat of the reserved lane, taken and released at once (R41): the reservation decides. -/
theorem Seat.reserve_take_release {seat : Seat} {n : LaneId} (named : Bool) (h : seat ≠ .reserved n) :
    ((seat.reserveFor n named).takeBy n).releaseBy n named =
      if named = true ∧ seat = .free then .held (.lane n)
      else if ¬named = true ∧ seat = .held (.lane n) then .free
      else seat := by
  cases named with
  | true =>
    by_cases hfree : seat = .free
    · subst hfree; simp [Seat.reserveFor, Seat.takeBy, Seat.releaseBy]
    · simp [Seat.reserveFor, Seat.takeBy, Seat.releaseBy, h, hfree]
  | false => simp [Seat.reserveFor, Seat.takeBy, Seat.releaseBy, h]

theorem Seat.reserveFor_eq (seat : Seat) (n : LaneId) (named : Bool) :
    seat.reserveFor n named = if named = true ∧ seat = .free then .reserved n else seat := by
  simp [Seat.reserveFor]

theorem State.reserveSeats_frame (s : State) (n : LaneId) : s.reserveSeats n = { s with rings := (s.reserveSeats n).rings } :=
  s.mapSeats_frame _

theorem State.seat_swapInOff (s : State) (n : LaneId) (r : RingId) (side : Side) :
    ((s.swapInOff n).ring r).seat side =
      ((((s.ring r).seat side).reserveFor n
        (bankNames (s.smap n).editBank (s.lane n).cfg.slots side r)).takeBy n).releaseBy n
        (bankNames (s.smap n).editBank (s.lane n).cfg.slots side r) := by
  rw [State.swapInOff, State.seat_exchange, State.seat_reserveSeats, State.smap_reserveSeats, State.lane_reserveSeats]

theorem State.sameButSeats_swapInOff (s : State) (n : LaneId) (r : RingId) :
    (s.ring r).SameButSeats ((s.swapInOff n).ring r) :=
  (s.sameButSeats_reserveSeats n r).trans (State.sameButSeats_exchange _ n none r)

theorem State.swapInOff_frame (s : State) (n : LaneId) :
    s.swapInOff n = { s with
      maps := (s.swapInOff n).maps, rings := (s.swapInOff n).rings,
      notices := s.notices.post ⟨.swapDone, .lane n, none, 0⟩ } := by
  have hframe := (s.reserveSeats n).exchange_frame n none
  rw [State.reserveSeats_frame s n] at hframe
  rw [State.swapInOff, State.reserveSeats_frame s n]
  exact hframe

/-- Settles O30: validation passes, and the seats are those of reservation and exchange. -/
theorem mapSwapReservesOrExchanges : Obligations.MapSwapReservesOrExchanges := by
  intro s n hs hn hstate hidle names test passes named
  have hnames : ∀ i side, names i side = (s.smap n).editBank[i].names side := fun i side => by cases side <;> rfl
  have htest : ∀ r side, test r side = s.namingTest n side r := fun r side => (s.namingTest_eq n side r).symm
  have hpasses : ∀ i side, passes i side ↔ s.entryTest n side (s.smap n).editBank[i] = none := fun i side => by
    simp only [passes, hnames, htest, State.entryTest_eq_none_iff]
  have hnamed : ∀ side r, named side r ↔ bankNames (s.smap n).editBank (s.lane n).cfg.slots side r = true :=
    fun side r => by simp only [named, hnames, bankNames_iff]
  simp only [hpasses, hnamed]
  intro hvalid
  have hvalid : (s.setCmd 0x45).validateSwap n = none := ((s.setCmd 0x45).validateSwap_eq_none_iff n).mpr hvalid
  have howner := mapSwapOwner_of_valid (s := s.setCmd 0x45) hn hstate hidle hvalid
  rw [exec_mapSwap]
  refine ⟨fun hon => ⟨_, rfl, ?_⟩, fun hoff hfree => ⟨_, rfl, ?_⟩⟩
  · rw [arrive_of_accepts hs, howner.trans (if_neg hon)]
    refine ⟨?_, fun m hm => ?_, ?_, fun r side => ⟨?_, ?_⟩⟩
    · rw [State.swapLater, State.reserveSeats_frame]
      rfl
    · rw [State.smap_answer, State.swapLater, State.smap_setSmap_of_ne _ _ _ _ hm]
      rfl
    · rw [State.smap_answer, State.swapLater, State.smap_setSmap_self]
      rfl
    · exact State.sameButSeats_reserveSeats (s.setCmd 0x45) n r
    · exact (State.seat_reserveSeats (s.setCmd 0x45) n r side).trans (Seat.reserveFor_eq _ n _)
  · rw [arrive_of_accepts hs, howner.trans (if_pos hoff)]
    refine ⟨?_, fun m hm => ?_, ?_, fun r side => ⟨?_, ?_⟩⟩
    · rw [State.swapInOff_frame]
      rfl
    · rw [State.smap_answer, State.swapInOff, State.smap_exchange_of_ne _ none hm]
      rfl
    · rw [State.smap_answer, State.swapInOff, State.smap_exchange_self]
      exact congrArg (fun pending => { s.smap n with live := (s.smap n).live.other, swapPending := pending }) hidle.symm
    · have hring := State.sameButSeats_swapInOff (s.setCmd 0x45) n r
      rw [State.ring_setCmd] at hring
      rw [State.ring_answer]
      exact hring
    · rw [State.ring_answer, State.seat_swapInOff]
      exact Seat.reserve_take_release _ (hfree r side)

end Sys2Proof.Machine
end

section
/-! PROOFS. Reads of PR_DataLo and writes of the two PW registers (R116 to R126). -/

namespace Sys2Proof.Machine

/-! ## Flags of the ports (R118, R120, R124, R125) -/

theorem State.postPortFault_eq (s : State) (source : Source) (detail : Byte) (was : Bool) :
    s.postPortFault source detail was =
      { s with notices := if was then s.notices else s.notices.post ⟨.portFault, source, none, detail⟩ } := by
  cases was <;> rfl

/-- STRAY of PR is set in READY, and posted where it was clear. -/
theorem State.setPrStray_eq (s : State) :
    s.setPrStray = if s.win.ready = false then s
      else { s with
        pr := { s.pr with stray := true },
        notices := if s.pr.stray then s.notices else s.notices.post ⟨.portFault, .pr, none, 2⟩ } := by
  cases hready : s.win.ready with
  | false => exact if_neg (by simp [hready])
  | true => exact (if_pos hready).trans (State.postPortFault_eq _ _ _ _)

theorem State.setPwStray_eq (s : State) :
    s.setPwStray = if s.win.ready = false then s
      else { s with
        pw := { s.pw with stray := true },
        notices := if s.pw.stray then s.notices else s.notices.post ⟨.portFault, .pw, none, 2⟩ } := by
  cases hready : s.win.ready with
  | false => exact if_neg (by simp [hready])
  | true => exact (if_pos hready).trans (State.postPortFault_eq _ _ _ _)

theorem State.setUnderflow_eq (s : State) :
    s.setUnderflow = { s with
      pr := { s.pr with underflow := true },
      notices := if s.pr.underflow then s.notices else s.notices.post ⟨.portFault, .pr, none, 1⟩ } :=
  State.postPortFault_eq _ _ _ _

theorem State.setOverflow_eq (s : State) :
    s.setOverflow = { s with
      pw := { s.pw with overflow := true },
      notices := if s.pw.overflow then s.notices else s.notices.post ⟨.portFault, .pw, none, 1⟩ } :=
  State.postPortFault_eq _ _ _ _

/-! ## PR (R117, R118, R120) -/

theorem exec_prDataLoRead_of_high {s : State} (h : s.resetLow = false) : exec .prDataLoRead s = .next s.prRead :=
  congrArg _ (if_neg (by simp [h]))

/-- Latch takes the high half where the ring is 32 bits wide. -/
theorem State.latchPr_eq (s : State) (r : RingId) (c : Cell) :
    s.latchPr r c = { s with
      pr := if (s.ring r).width = 32 then { s.pr with latch := BitVec.ofNat 16 (c.toNat / 65536) } else s.pr } := by
  unfold State.latchPr
  split <;> rfl

theorem State.prRead_of_unattached {s : State} (h : s.pr.attach = none) : s.prRead = s.setPrStray.drives 0 := by
  simp only [State.prRead, h]

theorem State.prRead_of_cells {s : State} {a : Attachment} (h : s.pr.attach = some a)
    (ho : (s.ring a.ring).state = .opened) (hcells : 0 < (s.ring a.ring).level) :
    s.prRead = ((s.removeCell a.ring).latchPr a.ring (s.headCell a.ring)).drives (loHalf (s.headCell a.ring)) := by
  simp only [State.prRead, h, State.removeForHost_of_cells ho hcells, if_true]

theorem State.prRead_of_empty {s : State} {a : Attachment} (h : s.pr.attach = some a)
    (ho : (s.ring a.ring).state = .opened) (hempty : (s.ring a.ring).level = 0) :
    s.prRead = ((s.latchPr a.ring (s.ring a.ring).fill).drives (loHalf (s.ring a.ring).fill)).setUnderflow := by
  simp only [State.prRead, h, State.removeForHost_of_empty ho hempty]
  rfl

theorem State.pr_removeCell (s : State) (r : RingId) : (s.removeCell r).pr = s.pr := by
  rw [State.removeCell_frame]

/-- Settles O36: the attachment and the Level choose among `setPrStray`, a removal and `setUnderflow`. -/
theorem prReadRemovesOrFaults : Obligations.PrReadRemovesOrFaults := by
  intro s hhigh
  rw [exec_prDataLoRead_of_high hhigh]
  refine ⟨fun hnone => ?unattached, fun a ha ho => ⟨fun hcells => ?cells, fun hempty => ?empty⟩⟩
  case unattached =>
    rw [State.prRead_of_unattached hnone, State.setPrStray_eq]
    split <;> rfl
  case cells =>
    rw [State.prRead_of_cells ha ho hcells, State.latchPr_eq, State.ring_removeCell_self, State.pr_removeCell,
      State.removeForHost_of_cells ho hcells, loHalf_eq_mod]
    rfl
  case empty =>
    rw [State.prRead_of_empty ha ho hempty, State.setUnderflow_eq, State.latchPr_eq, loHalf_eq_mod]
    by_cases hwidth : (s.ring a.ring).width = 32
    · simp only [State.drives, hwidth, if_true]
    · simp only [State.drives, hwidth, if_false]

/-! ## PW (R122 to R125) -/

theorem exec_pwDataHiWrite_of_high {s : State} (v : Word) (h : s.resetLow = false) :
    exec (.pwDataHiWrite v) s = .next (s.pwStage v) := congrArg _ (State.unlessReset_of_high _ h)

theorem exec_pwDataLoWrite_of_high {s : State} (v : Word) (h : s.resetLow = false) :
    exec (.pwDataLoWrite v) s = .next (s.pwPush v) := congrArg _ (State.unlessReset_of_high _ h)

/-- The cell of a low write: both halves on a 32-bit ring, else the written word within the width. -/
theorem formCell_eq (width : Nat) (staging v : Word) :
    formCell width staging v =
      if width = 32 then BitVec.ofNat 32 (staging.toNat * 65536 + v.toNat)
      else BitVec.ofNat 32 (v.toNat % 2 ^ width) := by
  unfold formCell
  split
  · rfl
  · rw [lowBits, toNat_cellOf]
    simp

theorem State.pwPush_of_room {s : State} {a : Attachment} (v : Word) (h : s.pw.attach = some a)
    (ho : (s.ring a.ring).state = .opened) (hroom : (s.ring a.ring).level < (s.ring a.ring).cap) :
    s.pwPush v =
      let t := s.storeCell a.ring (formCell (s.ring a.ring).width s.pw.staging v)
      { t with pw := { t.pw with staging := 0 } } := by
  simp only [State.pwPush, h, State.appendClaim_of_room _ _ ho hroom, if_true]

theorem State.pwPush_of_full {s : State} {a : Attachment} (v : Word) (h : s.pw.attach = some a)
    (ho : (s.ring a.ring).state = .opened) (hfull : (s.ring a.ring).level = (s.ring a.ring).cap) :
    s.pwPush v = ({ s.primeFull a.ring with pw := { s.pw with staging := 0 } } : State).setOverflow := by
  simp only [State.pwPush, h, State.appendClaim_host_of_full _ ho hfull]
  rfl

theorem State.pw_storeCell (s : State) (r : RingId) (c : Cell) : (s.storeCell r c).pw = s.pw := by
  rw [State.storeCell_frame]

/-- Settles O37: the attachment, the ring's width and its room choose among `setPwStray`, staging, an append and
`setOverflow`. -/
theorem pwWritesStageAndAppend : Obligations.PwWritesStageAndAppend := by
  intro s v hhigh
  rw [exec_pwDataHiWrite_of_high v hhigh, exec_pwDataLoWrite_of_high v hhigh]
  refine ⟨fun hnone => ?unattached, fun a ha => ⟨?stage, fun ho => ⟨fun hroom => ?room, fun hfull => ?full⟩⟩⟩
  case unattached =>
    dsimp only
    rw [← State.setPwStray_eq]
    exact ⟨by simp only [State.pwStage, hnone], by simp only [State.pwPush, hnone]⟩
  case stage => simp only [State.pwStage, ha]
  case room =>
    rw [State.pwPush_of_room v ha ho hroom, ← formCell_eq]
    dsimp only
    rw [State.pw_storeCell]
  case full =>
    refine ⟨_, congrArg _ (State.pwPush_of_full v ha ho hfull), fun q hq => ?_, ?_, ?_⟩
    · rw [State.setOverflow_eq]
      exact State.ring_primeFull_of_ne s hq
    · rw [State.setOverflow_eq]
      exact State.ring_primeFull_self s a.ring
    · rw [State.setOverflow_eq]
      rfl

end Sys2Proof.Machine
end

section
/-! PROOFS. Data accesses of the channels: the access forms, a completed access, and what a low access does outside a
grant (R131, R132, R138 to R144, R172). -/

namespace Sys2Proof.Machine

/-! ## The access forms (R131, R132, R172) -/

theorem exec_dnDataLoRead_of_high {s : State} (ch : ChanId) (h : s.resetLow = false) :
    exec (.dnDataLoRead ch) s = .next ((s.addressedLow ch none).1.drives (s.addressedLow ch none).2) :=
  congrArg _ (if_neg (by simp [h]))

theorem exec_dnDataLoWrite_of_high {s : State} (ch : ChanId) (v : Word) (h : s.resetLow = false) :
    exec (.dnDataLoWrite ch v) s = .next (s.addressedLow ch (some v)).1 := congrArg _ (State.unlessReset_of_high _ h)

theorem exec_dnDataHiWrite_of_high {s : State} (ch : ChanId) (v : Word) (h : s.resetLow = false) :
    exec (.dnDataHiWrite ch v) s = .next (s.addressedHighWrite ch v) := congrArg _ (State.unlessReset_of_high _ h)

theorem exec_acknowledgedStrobe_of_high {s : State} (dak0 dak1 : Bool) (w : Option Word) (h : s.resetLow = false) :
    exec (.acknowledgedStrobe dak0 dak1 w) s = .next (s.ackStrobe dak0 dak1 w) := congrArg _ (if_neg (by simp [h]))

/-- A strobe with one acknowledge input asserted. -/
theorem exec_strobe {s : State} (ch : ChanId) (w : Option Word) (h : s.resetLow = false) :
    exec (.acknowledgedStrobe (ch == 0) (ch == 1) w) s =
      .next ((s.ackAccess ch w).1.drivesIfRead w (s.ackAccess ch w).2) := by
  rw [exec_acknowledgedStrobe_of_high _ _ w h]
  rcases chanId_cases ch with rfl | rfl
  · rfl
  · rfl

theorem State.addressedLow_of_addressed {s : State} {ch : ChanId} (w : Option Word)
    (h : (s.chan ch).form = .addressed) : s.addressedLow ch w = s.lowAccess ch w := by
  simp only [State.addressedLow, h]

theorem State.addressedLow_of_acked {s : State} {ch : ChanId} (w : Option Word) (h : (s.chan ch).form = .acked) :
    s.addressedLow ch w = (s, 0) := by
  simp only [State.addressedLow, h]

theorem State.ackAccess_of_addressed {s : State} {ch : ChanId} (w : Option Word)
    (h : (s.chan ch).form = .addressed) : s.ackAccess ch w = (s, 0) := by
  simp only [State.ackAccess, h]

theorem State.ackAccess_of_unattached {s : State} {ch : ChanId} (w : Option Word) (h : (s.chan ch).form = .acked)
    (hnone : (s.chan ch).attach = none) : s.ackAccess ch w = s.lowAccess ch w := by
  simp only [State.ackAccess, h, hnone]

theorem State.ackAccess_of_narrow {s : State} {ch : ChanId} {a : Attachment} (w : Option Word)
    (h : (s.chan ch).form = .acked) (ha : (s.chan ch).attach = some a) (hwidth : (s.ring a.ring).width ≠ 32) :
    s.ackAccess ch w = s.lowAccess ch w := by
  simp only [State.ackAccess, h, ha, hwidth, if_false]

/-- On a 32-bit ring each strobe changes Phase, and the Phase before it tells the halves apart. -/
theorem State.ackAccess_of_wide {s : State} {ch : ChanId} {a : Attachment} (w : Option Word)
    (h : (s.chan ch).form = .acked) (ha : (s.chan ch).attach = some a) (hwidth : (s.ring a.ring).width = 32) :
    s.ackAccess ch w =
      if (s.chan ch).phase.high a.side then
        (s.setChan ch { s.chan ch with phase := (s.chan ch).phase.other }).highAccess ch a.side w
      else (s.setChan ch { s.chan ch with phase := (s.chan ch).phase.other }).lowAccess ch w := by
  simp only [State.ackAccess, h, ha, hwidth, if_true]

/-! ## Low accesses by the channel's state (R138, R139, R143, R144) -/

theorem State.lowAccess_of_inactive {s : State} {ch : ChanId} (w : Option Word)
    (h : (s.chan ch).attach = none ∨ (s.chan ch).state ≠ .active) : s.lowAccess ch w = (s.setChanStray ch, 0) := by
  cases ha : (s.chan ch).attach with
  | none => simp only [State.lowAccess, ha]
  | some a =>
    have hstate := h.resolve_left (by simp [ha])
    simp [State.lowAccess, ha, hstate]

theorem State.lowAccess_of_ungranted {s : State} {ch : ChanId} {a : Attachment} (w : Option Word)
    (ha : (s.chan ch).attach = some a) (hactive : (s.chan ch).state = .active) (hgrant : (s.chan ch).grant = 0) :
    s.lowAccess ch w = s.strayAccess ch a.ring w := by
  simp [State.lowAccess, ha, hactive, hgrant]

section
variable {s : State} {ch : ChanId} {r : RingId} (hactive : (s.chan ch).state = .active) (hgrant : 0 < (s.chan ch).grant)
include hactive hgrant

theorem State.lowAccess_read (ha : (s.chan ch).attach = some ⟨r, .consumer⟩) :
    s.lowAccess ch none = s.chanRemove ch r := by
  simp [State.lowAccess, ha, hactive, Nat.ne_of_gt hgrant]

theorem State.lowAccess_write (v : Word) (ha : (s.chan ch).attach = some ⟨r, .producer⟩) :
    s.lowAccess ch (some v) = (s.chanAppend ch r v, 0) := by
  simp [State.lowAccess, ha, hactive, Nat.ne_of_gt hgrant]

/-- A read of a WRITE channel inside its grant. -/
theorem State.lowAccess_read_of_producer (ha : (s.chan ch).attach = some ⟨r, .producer⟩) :
    s.lowAccess ch none = (s, 0) := by
  simp [State.lowAccess, ha, hactive, Nat.ne_of_gt hgrant]

/-- A write of a READ channel inside its grant. -/
theorem State.lowAccess_write_of_consumer (v : Word) (ha : (s.chan ch).attach = some ⟨r, .consumer⟩) :
    s.lowAccess ch (some v) = (s, 0) := by
  simp [State.lowAccess, ha, hactive, Nat.ne_of_gt hgrant]

end

/-! ## Strobes (R131, R132, R172) -/

theorem Phase.other_eq (p : Phase) :
    p.other = match p with
      | .first => .second
      | .second => .first := rfl

theorem State.highAccess_write_producer (s : State) (ch : ChanId) (v : Word) :
    (s.highAccess ch .producer (some v)).1 =
      if (s.chan ch).state = .active then s.setChan ch { s.chan ch with staging := v }
      else if s.win.ready then s.setChan ch { s.chan ch with stray := true }
      else s := by
  simp only [State.highAccess]
  split <;> rfl

/-- With both acknowledge inputs asserted the channels take the strobe one after the other (log 10). -/
theorem State.ackBoth_order (s : State) (w : Option Word) :
    ∃ first second : ChanId, first ≠ second ∧
      s.ackBoth w =
        let p := { s with freeCount := s.freeCount + 1 }.ackAccess first w
        let q := p.1.ackAccess second w
        q.1.drivesIfRead w (p.2 ||| q.2) := by
  cases horder : Config.ackD1First s.freeCount with
  | false => exact ⟨0, 1, by decide, by simp only [State.ackBoth, horder]; rfl⟩
  | true => exact ⟨1, 0, by decide, by simp only [State.ackBoth, horder]; rfl⟩

/-- Settles O42: the form, the attachment, the ring's width and the Phase choose the half that a strobe reaches. -/
theorem acknowledgedStrobesFollowFormAndPhase : Obligations.AcknowledgedStrobesFollowFormAndPhase := by
  refine ⟨fun s ch w hhigh => ?one, fun s w hhigh => ?both⟩
  case both =>
    obtain ⟨first, second, hne, hboth⟩ := s.ackBoth_order w
    refine ⟨first, second, hne, ?_⟩
    rw [exec_acknowledgedStrobe_of_high true true w hhigh]
    cases w with
    | none => exact congrArg _ hboth
    | some v => exact congrArg _ hboth
  case one =>
    intro strobe c shown
    have hstrobe : exec strobe s = .next (shown (s.ackAccess ch w)) := by
      refine (exec_strobe ch w hhigh).trans ?_
      cases w <;> rfl
    refine ⟨hstrobe, fun hform => ?_, fun hform hnone => ?_, fun a ha hform => ⟨fun hwidth => ?_, fun hwidth => ?_⟩⟩
    · rw [hstrobe, State.ackAccess_of_addressed w hform]
    · rw [hstrobe, State.ackAccess_of_unattached w hform hnone]
    · rw [hstrobe, State.ackAccess_of_narrow w hform ha hwidth]
    · intro u
      have hwide : s.ackAccess ch w = if c.phase.high a.side then u.highAccess ch a.side w else u.lowAccess ch w :=
        State.ackAccess_of_wide w hform ha hwidth
      rw [hstrobe, hwide]
      have hself : u.chan ch = _ := s.chan_setChan_self ch _
      have hlatch : (u.chan ch).latch = c.latch := by rw [hself]
      have hstaging : (u.chan ch).staging = c.staging := by rw [hself]
      refine ⟨fun hside hphase => ?_, fun hside hphase => ?_, fun hside hphase => ?_, fun hside hphase => ?_⟩
      · rw [hside, hphase]
        rfl
      · rw [hside, hphase]
        cases w with
        | none => exact congrArg (fun x : Word => (Host.Outcome.next { u with readData := x } : Outcome)) hlatch
        | some v => rfl
      · rw [hside, hphase]
        rfl
      · rw [hside, hphase]
        cases w with
        | none => exact congrArg (fun x : Word => (Host.Outcome.next { u with readData := x } : Outcome)) hstaging
        | some v =>
          refine congrArg _ ((u.highAccess_write_producer ch v).trans ?_)
          rw [hself]
          rfl

/-! ## Accesses outside a grant (R143, R144) -/

theorem State.strayAccess_read (s : State) (ch : ChanId) (r : RingId) :
    s.strayAccess ch r none =
      ({ s.setChan ch { s.chan ch with
            state := .fault,
            latch := if (s.ring r).width = 32 then BitVec.ofNat 16 ((s.ring r).fill.toNat / 65536)
              else (s.chan ch).latch } with
          notices := s.notices.post ⟨.dmaFault, .dma ch, none, 0⟩ },
        BitVec.ofNat 16 ((s.ring r).fill.toNat % 65536)) := by
  rw [← loHalf_eq_mod]
  rfl

theorem State.strayAccess_write (s : State) (ch : ChanId) (r : RingId) (v : Word) :
    s.strayAccess ch r (some v) =
      ({ s.setChan ch { s.chan ch with state := .fault, staging := 0 } with
          notices := s.notices.post ⟨.dmaFault, .dma ch, none, 0⟩ }, 0) := rfl

/-- STRAY set in READY, and the state otherwise. -/
def State.strayed (u : State) (ch : ChanId) : State :=
  if u.win.ready then u.setChan ch { u.chan ch with stray := true } else u

theorem State.setChanStray_eq (u : State) (ch : ChanId) : u.setChanStray ch = u.strayed ch := rfl

/-- What a read and a write do to the state `s` where they are low accesses of a channel in the state `u` that move no
cell. -/
def State.Unmoved (s : State) (ch : ChanId) (u : State) (read write : Instr) : Prop :=
  ((s.chan ch).attach = none ∨ (s.chan ch).state ≠ .active →
    exec read s = .next { u.strayed ch with readData := 0 } ∧ exec write s = .next (u.strayed ch)) ∧
  ∀ a, (s.chan ch).attach = some a → (s.chan ch).state = .active →
    (0 < (s.chan ch).grant →
      (a.side = .producer → exec read s = .next { u with readData := 0 }) ∧
      (a.side = .consumer → exec write s = .next u)) ∧
    ((s.chan ch).grant = 0 →
      exec read s = .next { u.setChan ch { u.chan ch with
            state := .fault,
            latch := if (s.ring a.ring).width = 32 then BitVec.ofNat 16 ((s.ring a.ring).fill.toNat / 65536)
              else (s.chan ch).latch } with
          readData := BitVec.ofNat 16 ((s.ring a.ring).fill.toNat % 65536),
          notices := s.notices.post ⟨.dmaFault, .dma ch, none, 0⟩ } ∧
      exec write s = .next { u.setChan ch { u.chan ch with state := .fault, staging := 0 } with
          notices := s.notices.post ⟨.dmaFault, .dma ch, none, 0⟩ })

/-- A read and a write that are low accesses move nothing outside a grant, whatever Phase the channel is taken to. -/
theorem State.unmoved_of_lowAccess {s : State} {ch : ChanId} {v : Word} {read write : Instr} (p : Phase)
    (hread : exec read s =
      .next (((s.setChan ch { s.chan ch with phase := p }).lowAccess ch none).1.drives
        ((s.setChan ch { s.chan ch with phase := p }).lowAccess ch none).2))
    (hwrite : exec write s = .next ((s.setChan ch { s.chan ch with phase := p }).lowAccess ch (some v)).1) :
    s.Unmoved ch (s.setChan ch { s.chan ch with phase := p }) read write := by
  have hself := s.chan_setChan_self ch { s.chan ch with phase := p }
  have hring : ∀ r, (s.setChan ch { s.chan ch with phase := p }).ring r = s.ring r := fun _ => rfl
  have hnotices : (s.setChan ch { s.chan ch with phase := p }).notices = s.notices := rfl
  rw [State.Unmoved, hread, hwrite]
  generalize s.setChan ch { s.chan ch with phase := p } = u at hself hring hnotices ⊢
  have hattach : (u.chan ch).attach = (s.chan ch).attach := by rw [hself]; rfl
  have hstate : (u.chan ch).state = (s.chan ch).state := by rw [hself]
  have hgrant : (u.chan ch).grant = (s.chan ch).grant := by rw [hself]
  have hlatch : (u.chan ch).latch = (s.chan ch).latch := by rw [hself]
  refine ⟨fun hinactive => ?_, fun a ha hactive => ⟨fun hpos => ⟨fun hside => ?_, fun hside => ?_⟩, fun hzero => ?_⟩⟩
  · rw [← hattach, ← hstate] at hinactive
    rw [State.lowAccess_of_inactive none hinactive, State.lowAccess_of_inactive (some v) hinactive, State.setChanStray_eq]
    exact ⟨rfl, rfl⟩
  · obtain ⟨r, side⟩ := a
    subst hside
    rw [State.lowAccess_read_of_producer (hstate.trans hactive) (hgrant ▸ hpos) (hattach.trans ha)]
    rfl
  · obtain ⟨r, side⟩ := a
    subst hside
    rw [State.lowAccess_write_of_consumer (hstate.trans hactive) (hgrant ▸ hpos) v (hattach.trans ha)]
  · rw [State.lowAccess_of_ungranted none (hattach.trans ha) (hstate.trans hactive) (hgrant.trans hzero),
      State.lowAccess_of_ungranted (some v) (hattach.trans ha) (hstate.trans hactive) (hgrant.trans hzero),
      State.strayAccess_read, State.strayAccess_write, hring, hnotices, hlatch]
    exact ⟨rfl, rfl⟩

theorem State.setChan_own_phase (s : State) (ch : ChanId) :
    s.setChan ch { s.chan ch with phase := (s.chan ch).phase } = s := s.setChan_chan ch

/-- The same, where the channel stays in its Phase. -/
theorem State.unmoved_of_lowAccess_self {s : State} {ch : ChanId} {v : Word} {read write : Instr}
    (hread : exec read s = .next ((s.lowAccess ch none).1.drives (s.lowAccess ch none).2))
    (hwrite : exec write s = .next (s.lowAccess ch (some v)).1) : s.Unmoved ch s read write := by
  have hunmoved := State.unmoved_of_lowAccess (s := s) (ch := ch) (v := v) (read := read) (write := write) (s.chan ch).phase
  rw [State.setChan_own_phase] at hunmoved
  exact hunmoved hread hwrite

theorem State.addressedHighWrite_of_acked {s : State} {ch : ChanId} (v : Word) (h : (s.chan ch).form = .acked) :
    s.addressedHighWrite ch v = s := by
  simp only [State.addressedHighWrite, h]

theorem State.addressedHighWrite_of_unattached {s : State} {ch : ChanId} (v : Word)
    (h : (s.chan ch).form = .addressed) (hnone : (s.chan ch).attach = none) :
    s.addressedHighWrite ch v = s.setChanStray ch := by
  simp only [State.addressedHighWrite, h, hnone]

theorem State.addressedHighWrite_of_attached {s : State} {ch : ChanId} {a : Attachment} (v : Word)
    (h : (s.chan ch).form = .addressed) (ha : (s.chan ch).attach = some a) :
    s.addressedHighWrite ch v =
      if (s.ring a.ring).width = 32 then (s.highAccess ch a.side (some v)).1 else s := by
  simp only [State.addressedHighWrite, h, ha]

/-- Settles O41: by form, attachment, width and Phase each access is a low access of the channel, which moves nothing
outside a grant, or none at all. -/
theorem accessesOutsideAGrantMoveNothing : Obligations.AccessesOutsideAGrantMoveNothing := by
  intro s ch v hhigh
  have hreadStrobe := exec_strobe (s := s) ch none hhigh
  have hwriteStrobe := exec_strobe (s := s) ch (some v) hhigh
  refine ⟨fun hform => ⟨?ackedRead, ?ackedWrite, ?ackedHigh, fun hnone => ?ackedUnattached, fun a ha =>
      ⟨fun hwidth => ?ackedNarrow, fun hwidth hside hphase => ?ackedRead32, fun hwidth hside hphase => ?ackedWrite32⟩⟩,
    fun hform => ⟨?addressed, fun hnone => ?highUnattached, fun a ha => ⟨fun hnot => ?highIgnored,
      fun hwidth hside hstate => ?highStray⟩⟩⟩
  case ackedRead =>
    rw [exec_dnDataLoRead_of_high ch hhigh, State.addressedLow_of_acked none hform]
    rfl
  case ackedWrite => rw [exec_dnDataLoWrite_of_high ch v hhigh, State.addressedLow_of_acked (some v) hform]
  case ackedHigh => rw [exec_dnDataHiWrite_of_high ch v hhigh, State.addressedHighWrite_of_acked v hform]
  case ackedUnattached =>
    rw [State.ackAccess_of_unattached _ hform hnone] at hreadStrobe hwriteStrobe
    exact State.unmoved_of_lowAccess_self hreadStrobe hwriteStrobe
  case ackedNarrow =>
    rw [State.ackAccess_of_narrow _ hform ha hwidth] at hreadStrobe hwriteStrobe
    exact State.unmoved_of_lowAccess_self hreadStrobe hwriteStrobe
  case ackedRead32 =>
    rw [State.ackAccess_of_wide _ hform ha hwidth, hside, hphase] at hreadStrobe hwriteStrobe
    exact State.unmoved_of_lowAccess .second hreadStrobe hwriteStrobe
  case ackedWrite32 =>
    rw [State.ackAccess_of_wide _ hform ha hwidth, hside, hphase] at hreadStrobe hwriteStrobe
    exact State.unmoved_of_lowAccess .first hreadStrobe hwriteStrobe
  case addressed =>
    refine State.unmoved_of_lowAccess_self ?_ (v := v) ?_
    · rw [exec_dnDataLoRead_of_high ch hhigh, State.addressedLow_of_addressed none hform]
    · rw [exec_dnDataLoWrite_of_high ch v hhigh, State.addressedLow_of_addressed (some v) hform]
  case highUnattached =>
    rw [exec_dnDataHiWrite_of_high ch v hhigh, State.addressedHighWrite_of_unattached v hform hnone]
    rfl
  case highIgnored =>
    rw [exec_dnDataHiWrite_of_high ch v hhigh, State.addressedHighWrite_of_attached v hform ha]
    split
    · rename_i hwidth
      rw [hnot.resolve_left (not_not_intro hwidth)]
      rfl
    · rfl
  case highStray =>
    rw [exec_dnDataHiWrite_of_high ch v hhigh, State.addressedHighWrite_of_attached v hform ha, if_pos hwidth, hside,
      State.highAccess_write_producer, if_neg hstate]

end Sys2Proof.Machine
end

section
/-! PROOFS. Cell accesses of the channels inside a grant: the channel's record and the notices after the access, and the
cell that it moves (R138 to R142). -/

namespace Sys2Proof.Machine

/-! ## A completed access (R141, R142) -/

/-- The record of an ACTIVE channel that completes an access, its ring then having `available` for it. -/
def Channel.afterAccess (c : Channel) (available : Nat) : Channel :=
  { c with
    tally := c.stepped.tally,
    state := if c.mode = .count ∧ c.stepped.tally = 0 then .idle else .active,
    grant := if ¬(c.mode = .count ∧ c.stepped.tally = 0) ∧ c.grant = 1 ∧ c.stepped.want ≤ available
      then c.stepped.want else c.grant - 1,
    gap := if c.mode = .count ∧ c.stepped.tally = 0 then false
      else if c.grant = 1 then decide ((c.grant = 1 ∧ c.stepped.want ≤ available) ∧ 0 < c.stepped.want) else c.gap }

/-- The notices of a completed access: the end of a COUNT run, or the wrap of a FREE count. -/
def Channel.accessNotices (c : Channel) (ch : ChanId) (u : NoticeUnit) : NoticeUnit :=
  if c.mode = .count ∧ c.stepped.tally = 0 then u.post ⟨.dmaDone, .dma ch, none, 0⟩
  else if c.mode = .free ∧ c.stepped.tally = 0 then u.post ⟨.dmaWrap, .dma ch, none, 0⟩
  else u

theorem State.postWrap_eq (s : State) (ch : ChanId) :
    s.postWrap ch = { s with
      notices := if (s.chan ch).mode = .free ∧ (s.chan ch).tally = 0
        then s.notices.post ⟨.dmaWrap, .dma ch, none, 0⟩ else s.notices } := by
  unfold State.postWrap
  split <;> rfl

/-- A Grant that has reached 0 is evaluated anew, and a new grant begins a gap. -/
theorem State.reevaluate_eq {s : State} {ch : ChanId} {a : Attachment} (ha : (s.chan ch).attach = some a)
    (hactive : (s.chan ch).state = .active) (hgrant : (s.chan ch).grant = 0) :
    s.reevaluate ch = s.setChan ch { s.chan ch with
      grant := if (s.chan ch).want ≤ (s.ring a.ring).available a.side then (s.chan ch).want else 0,
      gap := decide ((s.chan ch).want ≤ (s.ring a.ring).available a.side ∧ 0 < (s.chan ch).want) } := by
  rw [State.reevaluate, State.evaluate_eq_setChan, State.chan_evaluate_of_attached ha]
  simp only [hactive, hgrant, true_and, State.chan_setChan_self, State.setChan_setChan]
  by_cases hwant : (s.chan ch).want ≤ (s.ring a.ring).available a.side
  · simp only [hwant, if_true, true_and]
  · simp only [hwant, if_false, hgrant, Nat.lt_irrefl, false_and, hactive]

/-- A completed access in one equation. -/
theorem State.completeAccess_eq {s : State} {ch : ChanId} {a : Attachment} (ha : (s.chan ch).attach = some a)
    (hactive : (s.chan ch).state = .active) (hgrant : 0 < (s.chan ch).grant) :
    s.completeAccess ch = { s.setChan ch ((s.chan ch).afterAccess ((s.ring a.ring).available a.side)) with
      notices := (s.chan ch).accessNotices ch s.notices } := by
  have hself : (s.setChan ch (s.chan ch).stepped).chan ch = (s.chan ch).stepped := s.chan_setChan_self ch _
  rw [State.completeAccess, State.postWrap_eq, hself]
  simp only [State.chan_with_notices, hself]
  by_cases hdone : (s.chan ch).stepped.mode = .count ∧ (s.chan ch).stepped.tally = 0
  · rw [if_pos hdone]
    have hnotfree : ¬((s.chan ch).stepped.mode = .free ∧ (s.chan ch).stepped.tally = 0) := by simp [hdone.1]
    have hmode : (s.chan ch).mode = .count := hdone.1
    rw [if_neg hnotfree]
    simp only [Channel.afterAccess, Channel.accessNotices, hmode, hdone.2, true_and, if_true, not_true_eq_false,
      false_and, if_false]
    simp only [State.post, State.setChan, Vector.set_set, ← hmode]
    simp only [Channel.stepped, ← hdone.2]
  · rw [if_neg hdone]
    have hmode : ¬((s.chan ch).mode = .count ∧ (s.chan ch).stepped.tally = 0) := hdone
    by_cases hlast : (s.chan ch).grant = 1
    · have hzero : (s.chan ch).stepped.grant = 0 := by simp [Channel.stepped, hlast]
      rw [if_pos hzero, State.reevaluate_eq (a := a) (by rw [State.chan_with_notices, hself]; exact ha)
        (by rw [State.chan_with_notices, hself]; exact hactive) (by rw [State.chan_with_notices, hself]; exact hzero)]
      simp only [State.chan_with_notices, hself, Channel.afterAccess, Channel.accessNotices, hmode, if_false, hlast,
        true_and, not_false_eq_true, if_true, ← hactive]
      simp only [State.setChan, Vector.set_set]
      rfl
    · have hmore : ¬(s.chan ch).stepped.grant = 0 := by
        show ¬(s.chan ch).grant - 1 = 0
        omega
      rw [if_neg hmore]
      simp only [Channel.afterAccess, Channel.accessNotices, hmode, if_false, hlast, false_and, and_false,
        ← hactive]
      rfl

/-- An access completed after its channel's record took the value `d`. -/
theorem State.completeAccess_setChan {s : State} {ch : ChanId} {d : Channel} {a : Attachment} {available : Nat}
    (ha : d.attach = some a) (hactive : d.state = .active) (hgrant : 0 < d.grant)
    (hring : (s.ring a.ring).available a.side = available) :
    (s.setChan ch d).completeAccess ch =
      { s.setChan ch (d.afterAccess available) with notices := d.accessNotices ch s.notices } := by
  have hself := s.chan_setChan_self ch d
  have h := State.completeAccess_eq (s := s.setChan ch d) (ch := ch) (a := a) (by rw [hself]; exact ha)
    (by rw [hself]; exact hactive) (by rw [hself]; exact hgrant)
  rw [hself, State.setChan_setChan, State.ring_setChan, hring] at h
  exact h

/-! ## Claims of a channel whose Phase an access changes -/

theorem State.chan_evaluate_of_granted {s : State} {ch : ChanId} (h : 0 < (s.chan ch).grant) :
    (s.evaluate ch).chan ch = s.chan ch := by
  cases ha : (s.chan ch).attach with
  | none => simp only [State.evaluate, ha]
  | some a => rw [State.chan_evaluate_of_attached ha, if_neg fun hall => Nat.ne_of_gt h hall.2.1]

/-- A level report leaves a channel with a grant as it is (R18). -/
theorem State.chan_report_of_granted {s : State} {ch : ChanId} (r : RingId) (h : 0 < (s.chan ch).grant) :
    (s.report r).chan ch = s.chan ch := by
  rw [State.chan_report_self, State.chan_evaluate_of_granted h, ite_self]

theorem State.chan_report_congr {s t : State} {ch : ChanId} (r : RingId) (h : t.chan ch = s.chan ch)
    (hr : t.rings = s.rings) : (t.report r).chan ch = (s.report r).chan ch := by
  rw [State.chan_report_self, State.chan_report_self, State.seatedAt_congr h, State.chan_evaluate_congr h hr, h]

theorem State.rezone_setChan (s : State) (r : RingId) (ch : ChanId) (c : Channel) :
    (s.setChan ch c).rezone r = (s.rezone r).setChan ch c := by
  by_cases hsame : (s.ring r).zoneNow = (s.ring r).zone
  · simp only [State.rezone, State.ring_setChan, hsame, if_true]
  · simp only [State.rezone, State.ring_setChan, hsame, if_false]
    cases (s.ring r).zoneNow <;> rfl

/-- A level report on a channel record of another value reaches the other channels all the same. -/
theorem State.report_setChan (s : State) (r : RingId) (ch : ChanId) (c : Channel) :
    ∃ chans, (s.setChan ch c).report r = { s.report r with chans := chans } ∧
      (s.report r).SameChansBut ((s.setChan ch c).report r) ch := by
  refine ⟨((s.setChan ch c).report r).chans, ?_,
    fun d hd => State.chan_report_congr r (s.chan_setChan_of_ne ch d c hd) rfl⟩
  rw [State.report_frame (s.setChan ch c), State.report_frame s]
  rfl

theorem State.removeCell_setChan (s : State) (r : RingId) (ch : ChanId) (c : Channel) :
    ∃ chans, (s.setChan ch c).removeCell r = { s.removeCell r with chans := chans } ∧
      (s.removeCell r).SameChansBut ((s.setChan ch c).removeCell r) ch := by
  have hsame : (s.setChan ch c).removeCell r =
      (((s.setRing r ((s.ring r).removed (s.headCell r))).rezone r).setChan ch c).report r := by
    rw [← State.rezone_setChan]
    rfl
  rw [hsame]
  exact State.report_setChan _ r ch c

theorem State.storeCell_setChan (s : State) (r : RingId) (x : Cell) (ch : ChanId) (c : Channel) :
    ∃ chans, (s.setChan ch c).storeCell r x = { s.storeCell r x with chans := chans } ∧
      (s.storeCell r x).SameChansBut ((s.setChan ch c).storeCell r x) ch := by
  have hsame : (s.setChan ch c).storeCell r x =
      (((({ s with mem := Memory.writeCell s.mem (s.ring r).base (s.ring r).width (s.ring r).tail x } : State).setRing r
        (s.ring r).stored).rezone r).setChan ch c).report r := by
    rw [← State.rezone_setChan]
    rfl
  rw [hsame]
  exact State.report_setChan _ r ch c

theorem State.chan_removeCell_of_granted {s : State} {ch : ChanId} (r : RingId) (h : 0 < (s.chan ch).grant) :
    (s.removeCell r).chan ch = s.chan ch := by
  have hsame : ((s.setRing r ((s.ring r).removed (s.headCell r))).rezone r).chan ch = s.chan ch := by simp
  rw [State.removeCell, State.chan_report_of_granted r (by rw [hsame]; exact h), hsame]

theorem State.chan_storeCell_of_granted {s : State} {ch : ChanId} (r : RingId) (x : Cell) (h : 0 < (s.chan ch).grant) :
    (s.storeCell r x).chan ch = s.chan ch := by
  have hsame : ((({ s with mem := Memory.writeCell s.mem (s.ring r).base (s.ring r).width (s.ring r).tail x } : State).setRing r
      (s.ring r).stored).rezone r).chan ch = s.chan ch := by simp
  simp only [State.storeCell]
  rw [State.chan_report_of_granted r (by rw [hsame]; exact h), hsame]

/-- `t` is `s` but for a channel's new record `d`, the notices and the read data. -/
def State.MovedTo (s t : State) (ch : ChanId) (d : Channel) (notices : NoticeUnit) (data : Word) : Prop :=
  t = { s with readData := data, chans := t.chans, notices := notices } ∧ s.SameChansBut t ch ∧ t.chan ch = d

theorem State.movedTo_drives {s t : State} {ch : ChanId} (d : Channel) (notices : NoticeUnit) (data : Word)
    {chans : Vector Channel 2} (ht : t = { s with chans := chans }) (hothers : s.SameChansBut t ch) :
    s.MovedTo (({ t.setChan ch d with notices := notices } : State).drives data) ch d notices data := by
  refine ⟨by rw [ht]; rfl, fun e he => ?_, State.chan_setChan_self t ch d⟩
  exact (State.chan_setChan_of_ne t ch e d he).trans (hothers e he)

theorem State.movedTo_setChan {s t : State} {ch : ChanId} (d : Channel) (notices : NoticeUnit)
    {chans : Vector Channel 2} (ht : t = { s with chans := chans }) (hothers : s.SameChansBut t ch) :
    s.MovedTo { t.setChan ch d with notices := notices } ch d notices s.readData := by
  refine ⟨by rw [ht]; rfl, fun e he => ?_, State.chan_setChan_self t ch d⟩
  exact (State.chan_setChan_of_ne t ch e d he).trans (hothers e he)

/-! ## A READ channel's access (R138) -/

/-- A cell access of a READ channel: the removal, then the channel's record and notices. -/
theorem State.chanRemove_eq {s : State} {ch : ChanId} {r : RingId} (ha : (s.chan ch).attach = some ⟨r, .consumer⟩)
    (hactive : (s.chan ch).state = .active) (hgrant : 0 < (s.chan ch).grant) (ho : (s.ring r).state = .opened)
    (hcells : 0 < (s.ring r).level) :
    s.chanRemove ch r =
      ({ (s.removeCell r).setChan ch
          (({ s.chan ch with latch := if (s.ring r).width = 32 then hiHalf (s.headCell r) else 0 } : Channel).afterAccess
            ((s.ring r).level - 1)) with
          notices := (s.chan ch).accessNotices ch (s.removeCell r).notices },
        loHalf (s.headCell r)) := by
  have hring : ((s.removeCell r).ring r).available .consumer = (s.ring r).level - 1 := by
    rw [State.ring_removeCell_self]
    rfl
  simp only [State.chanRemove, State.removeForHost_of_cells ho hcells, State.chan_removeCell_of_granted r hgrant]
  have hdone := State.completeAccess_setChan (ch := ch) (a := ⟨r, .consumer⟩)
    (d := { s.chan ch with latch := if (s.ring r).width = 32 then hiHalf (s.headCell r) else 0 }) ha hactive hgrant hring
  exact congrArg (·, loHalf (s.headCell r)) hdone

/-- What a READ access moves and what becomes of its channel, whatever record `c` the channel has. -/
theorem State.chanRemove_moves {s : State} {ch : ChanId} {r : RingId} {c : Channel}
    (ha : c.attach = some ⟨r, .consumer⟩) (hactive : c.state = .active) (hgrant : 0 < c.grant)
    (ho : (s.ring r).state = .opened) (hcells : 0 < (s.ring r).level) :
    (s.removeCell r).MovedTo
      (((s.setChan ch c).lowAccess ch none).1.drives ((s.setChan ch c).lowAccess ch none).2) ch
      (({ c with latch := if (s.ring r).width = 32 then hiHalf (s.headCell r) else 0 } : Channel).afterAccess
        ((s.ring r).level - 1))
      (c.accessNotices ch (s.removeCell r).notices) (loHalf (s.headCell r)) := by
  have hself := s.chan_setChan_self ch c
  have ha' : ((s.setChan ch c).chan ch).attach = some ⟨r, .consumer⟩ := by rw [hself]; exact ha
  have hactive' : ((s.setChan ch c).chan ch).state = .active := by rw [hself]; exact hactive
  have hgrant' : 0 < ((s.setChan ch c).chan ch).grant := by rw [hself]; exact hgrant
  have hhead : (s.setChan ch c).headCell r = s.headCell r := rfl
  obtain ⟨chans, hframe, hothers⟩ := s.removeCell_setChan r ch c
  have hmoved := State.chanRemove_eq ha' hactive' hgrant' ho hcells
  rw [hself, hhead, State.ring_setChan] at hmoved
  have hnotices : ((s.setChan ch c).removeCell r).notices = (s.removeCell r).notices := by rw [hframe]
  rw [hnotices] at hmoved
  rw [State.lowAccess_read hactive' hgrant' ha', hmoved]
  exact State.movedTo_drives _ _ _ hframe hothers

/-- Settles O39: both access forms make a low access of the channel, in the Phase that a strobe on a 32-bit ring takes it
to. -/
theorem readChannelAccessMovesACell : Obligations.ReadChannelAccessMovesACell := by
  intro s ch r hhigh ha hactive hgrant ho hcells c cell u tally done want again moved
  have hwant : want = c.stepped.want := by
    cases hmode : c.mode <;> simp [want, tally, Channel.want, Channel.stepped, hmode]
  have hu : u = s.removeCell r := congrArg Prod.fst (State.removeForHost_of_cells ho hcells)
  have hmoved : ∀ phase, ∃ t, ((s.setChan ch { c with phase := phase }).lowAccess ch none).1.drives
      ((s.setChan ch { c with phase := phase }).lowAccess ch none).2 = t ∧ moved phase t := fun phase => by
    simp only [moved, again, hu, hwant, cell]
    rw [← loHalf_eq_mod]
    obtain ⟨hframe, hothers, hself⟩ := State.chanRemove_moves (ch := ch) (c := { c with phase := phase }) ha hactive
      hgrant ho hcells
    exact ⟨_, rfl, hframe, hothers, hself⟩
  have hown := hmoved c.phase
  rw [State.setChan_own_phase] at hown
  refine ⟨fun hform => ?_, fun hform hphase => ?_⟩
  · obtain ⟨t, ht, hmoves⟩ := hown
    refine ⟨t, ?_, hmoves⟩
    rw [exec_dnDataLoRead_of_high ch hhigh, State.addressedLow_of_addressed none hform, ht]
  · rw [exec_strobe ch none hhigh]
    by_cases hwidth : (s.ring r).width = 32
    · obtain ⟨t, ht, hmoves⟩ := hmoved .second
      rw [if_pos hwidth, State.ackAccess_of_wide none hform ha hwidth, hphase.resolve_left (not_not_intro hwidth)]
      exact ⟨t, congrArg _ ht, hmoves⟩
    · obtain ⟨t, ht, hmoves⟩ := hown
      rw [if_neg hwidth, State.ackAccess_of_narrow none hform ha hwidth]
      exact ⟨t, congrArg _ ht, hmoves⟩

/-! ## A WRITE channel's access (R139) -/

/-- A cell access of a WRITE channel: the append, then the channel's record and notices. -/
theorem State.chanAppend_eq {s : State} {ch : ChanId} {r : RingId} (v : Word)
    (ha : (s.chan ch).attach = some ⟨r, .producer⟩) (hactive : (s.chan ch).state = .active)
    (hgrant : 0 < (s.chan ch).grant) (ho : (s.ring r).state = .opened) (hroom : (s.ring r).level < (s.ring r).cap) :
    s.chanAppend ch r v =
      { (s.storeCell r (formCell (s.ring r).width (s.chan ch).staging v)).setChan ch
          (({ s.chan ch with staging := 0 } : Channel).afterAccess ((s.ring r).cap - ((s.ring r).level + 1))) with
        notices := (s.chan ch).accessNotices ch
          (s.storeCell r (formCell (s.ring r).width (s.chan ch).staging v)).notices } := by
  have hring : ∀ x, ((s.storeCell r x).ring r).available .producer = (s.ring r).cap - ((s.ring r).level + 1) := by
    intro x
    rw [State.ring_storeCell_self]
    rfl
  simp only [State.chanAppend, State.appendClaim_of_room _ _ ho hroom, State.chan_storeCell_of_granted r _ hgrant]
  exact State.completeAccess_setChan (ch := ch) (a := ⟨r, .producer⟩) (d := { s.chan ch with staging := 0 }) ha hactive
    hgrant (hring _)

/-- What a WRITE access moves and what becomes of its channel, whatever record `c` the channel has. -/
theorem State.chanAppend_moves {s : State} {ch : ChanId} {r : RingId} {c : Channel} (v : Word)
    (ha : c.attach = some ⟨r, .producer⟩) (hactive : c.state = .active) (hgrant : 0 < c.grant)
    (ho : (s.ring r).state = .opened) (hroom : (s.ring r).level < (s.ring r).cap) :
    (s.storeCell r (formCell (s.ring r).width c.staging v)).MovedTo ((s.setChan ch c).lowAccess ch (some v)).1 ch
      (({ c with staging := 0 } : Channel).afterAccess ((s.ring r).cap - ((s.ring r).level + 1)))
      (c.accessNotices ch (s.storeCell r (formCell (s.ring r).width c.staging v)).notices)
      (s.storeCell r (formCell (s.ring r).width c.staging v)).readData := by
  have hself := s.chan_setChan_self ch c
  have ha' : ((s.setChan ch c).chan ch).attach = some ⟨r, .producer⟩ := by rw [hself]; exact ha
  have hactive' : ((s.setChan ch c).chan ch).state = .active := by rw [hself]; exact hactive
  have hgrant' : 0 < ((s.setChan ch c).chan ch).grant := by rw [hself]; exact hgrant
  obtain ⟨chans, hframe, hothers⟩ := s.storeCell_setChan r (formCell (s.ring r).width c.staging v) ch c
  have hmoved := State.chanAppend_eq v ha' hactive' hgrant' ho hroom
  rw [hself, State.ring_setChan] at hmoved
  have hnotices : ((s.setChan ch c).storeCell r (formCell (s.ring r).width c.staging v)).notices =
    (s.storeCell r (formCell (s.ring r).width c.staging v)).notices := by rw [hframe]
  rw [hnotices] at hmoved
  rw [State.lowAccess_write hactive' hgrant' v ha', hmoved]
  exact State.movedTo_setChan _ _ hframe hothers

/-- Settles O40: as for a READ channel; the staged half and the written word form the cell. -/
theorem writeChannelAccessMovesACell : Obligations.WriteChannelAccessMovesACell := by
  intro s ch r v hhigh ha hactive c
  refine ⟨fun hform => ?_, ?_⟩
  · rw [exec_dnDataHiWrite_of_high ch v hhigh, State.addressedHighWrite_of_attached v hform ha,
      State.highAccess_write_producer, if_pos hactive]
  · intro hgrant ho hroom cell u tally done want again moved
    have hwant : want = c.stepped.want := by
      cases hmode : c.mode <;> simp [want, tally, Channel.want, Channel.stepped, hmode]
    have hu : u = s.storeCell r (formCell (s.ring r).width c.staging v) := by rw [formCell_eq]
    have hmoved : ∀ phase, ∃ t, ((s.setChan ch { c with phase := phase }).lowAccess ch (some v)).1 = t ∧
        moved phase t := fun phase => by
      simp only [moved, again, hu, hwant]
      obtain ⟨hframe, hothers, hself⟩ := State.chanAppend_moves (ch := ch) (c := { c with phase := phase }) v ha hactive
        hgrant ho hroom
      exact ⟨_, rfl, hframe, hothers, hself⟩
    have hown := hmoved c.phase
    rw [State.setChan_own_phase] at hown
    refine ⟨fun hform => ?_, fun hform hphase => ?_⟩
    · obtain ⟨t, ht, hmoves⟩ := hown
      refine ⟨t, ?_, hmoves⟩
      rw [exec_dnDataLoWrite_of_high ch v hhigh, State.addressedLow_of_addressed (some v) hform, ht]
    · rw [exec_strobe ch (some v) hhigh]
      by_cases hwidth : (s.ring r).width = 32
      · obtain ⟨t, ht, hmoves⟩ := hmoved .first
        rw [if_pos hwidth, State.ackAccess_of_wide (some v) hform ha hwidth,
          hphase.resolve_left (not_not_intro hwidth)]
        exact ⟨t, congrArg _ ht, hmoves⟩
      · obtain ⟨t, ht, hmoves⟩ := hown
        rw [if_neg hwidth, State.ackAccess_of_narrow (some v) hform ha hwidth]
        exact ⟨t, congrArg _ ht, hmoves⟩

end Sys2Proof.Machine
end

section
/-! PROOFS. The edges of the bit clock, slot starts, slot ends and the end of a stopping frame (R48 to R51, R54 to R58,
R95 to R102, R111 to R113). -/

namespace Sys2Proof.Machine

/-! ## Drive edges (R54, R55, R58, R111, R112) -/

theorem exec_driveEdge (s : State) (n : LaneId) :
    exec (.driveEdge n) s = .next (s.setLane n (s.lane n).driveEdge) := rfl

theorem Lane.driveEdge_of_off {l : Lane} (h : l.state = .off) : l.driveEdge = l := by
  simp only [Lane.driveEdge, h]

theorem Lane.driveEdge_of_seeking {l : Lane} (h : l.state = .arming ∨ l.state = .hunt) (howes : l.owes = false) :
    l.driveEdge = { l with watchRunning := true } := by
  rcases h with h | h <;> simp only [Lane.driveEdge, h, howes, Bool.false_eq_true, if_false]

theorem Lane.driveEdge_of_framing {l : Lane} (h : l.state = .running ∨ l.state = .stopping) :
    l.driveEdge = l.driveRunning := by
  rcases h with h | h <;> simp only [Lane.driveEdge, h]

theorem Lane.driveRunning_of_opening {l : Lane} (h : l.half = .opening) : l.driveRunning = l.drive := by
  simp only [Lane.driveRunning, h]

/-- The next position within the frame, no slot opening at it. -/
theorem Lane.driveRunning_of_next {l : Lane} (hhalf : l.half = .sampled) (howes : l.owes = false)
    (hlen : l.position + 1 < l.cfg.frameLen)
    (hslot : ¬(l.position + 1 < l.cfg.slotsLen ∧ (l.position + 1) % l.cfg.width = 0)) :
    l.driveRunning = ({ l with position := l.position + 1 } : Lane).drive := by
  have hnotend : l.atFrameEnd = false := by simp [Lane.atFrameEnd, Nat.ne_of_lt hlen]
  have hnoslot : l.slotStartDue = false := by
    rw [Lane.slotStartDue, Bool.and_assoc, ← Bool.decide_and, decide_eq_false hslot, Bool.and_false]
  simp [Lane.driveRunning, hhalf, howes, hnoslot, Lane.frameStartDue, Lane.endOfFrameDue, hnotend, hlen]

/-- The close of a frame whose next frame start is not taken at this edge (R48; log 28). -/
theorem Lane.driveRunning_of_close {l : Lane} (hstate : l.state = .running) (hhalf : l.half = .sampled)
    (howes : l.owes = false) (hstarts : l.cfg.startsAtDrive = false) (hlast : l.position + 1 = l.cfg.frameLen) :
    l.driveRunning = ({ l with position := 0, between := true } : Lane).drive := by
  have hnoslot : l.slotStartDue = false := by
    have hout : ¬l.position + 1 < l.cfg.slotsLen := by
      have hle := l.cfg.slotsLen_le_frameLen
      omega
    simp [Lane.slotStartDue, hout]
  have hnotstart : l.frameStartDue = false := by simp [Lane.frameStartDue, hstarts]
  have hnotstop : l.endOfFrameDue = false := by simp [Lane.endOfFrameDue, hstate]
  simp [Lane.driveRunning, hhalf, howes, hnoslot, hnotstart, hnotstop, hlast]

/-- The transmit pin and TxBits from the drive edge of a position on. -/
theorem Lane.driveBit_eq {l : Lane} (hbetween : l.between = false) :
    l.driveBit = { l with
      txPin := if l.cfg.slotsLen ≤ l.position then .hiZ else match l.txCell with
        | .quiet => .hiZ
        | .cell c => if c.getLsbD (l.cfg.bitIndex l.txBits) then .high else .low,
      txBits := if l.cfg.slotsLen ≤ l.position then l.txBits else match l.txCell with
        | .quiet => l.txBits
        | .cell _ => l.txBits + 1 } := by
  by_cases hgap : l.cfg.slotsLen ≤ l.position
  · have hslot : l.inSlot = false := by simp [Lane.inSlot, hbetween, hgap]
    rw [Lane.driveBit_gap hbetween hslot, if_pos hgap, if_pos hgap]
  · have hslot : l.inSlot = true := l.inSlot_iff.mpr ⟨hbetween, Nat.lt_of_not_le hgap⟩
    rw [if_neg hgap, if_neg hgap]
    cases htx : l.txCell with
    | quiet => simp [Lane.driveBit, hbetween, hslot, htx]
    | cell c => simp [Lane.driveBit, hbetween, hslot, htx, pinLevel]

theorem Lane.syncBegins_iff (l : Lane) :
    l.syncBegins = true ↔ (l.cfg.syncEarly = false ∧ l.position = 0) ∨
      (l.cfg.syncEarly = true ∧ l.state = .running ∧ l.position + 1 = l.cfg.frameLen) := by
  cases hearly : l.cfg.syncEarly <;> simp [Lane.syncBegins, hearly]

theorem LaneConfig.driveLevel_eq (c : LaneConfig) : c.driveLevel = match c.clockEdge with
    | .driveRise => .high
    | .driveFall => .low := rfl

theorem LaneConfig.syncLen_eq (c : LaneConfig) : c.syncLen = match c.syncForm with
    | .pulse => 1
    | .slot => if c.frameLen = c.width then c.width - 1 else c.width := rfl

theorem Lane.drive_of_follower {l : Lane} (hrole : l.cfg.role = .follower) :
    l.drive = { l.driveBit with half := .driven, watchRunning := true } := by
  have hkept : l.driveBit.cfg = l.cfg := by rw [l.driveBit_frame]
  simp only [Lane.drive, hrole, hkept]

/-- A master's pins at a drive edge; `left` bit clocks of sync are to go, this one among them (R54, R55; log 23). -/
theorem Lane.drive_of_master {l : Lane} (hrole : l.cfg.role = .master) {left : Nat}
    (hleft : left = if l.syncBegins = true then l.cfg.syncLen else l.syncLeft) :
    l.drive = { l.driveBit with
      half := .driven, bclkPin := l.cfg.driveLevel, fsyncPin := if 0 < left then .high else .low,
      syncLeft := left - 1 } := by
  have hpin : pinLevel (decide (0 < left)) = if 0 < left then .high else .low := by simp [pinLevel]
  rw [← hpin, hleft]
  simp only [Lane.drive, hrole, Lane.driveClock]
  rw [l.driveBit_frame]
  rfl

/-- The drive edge that opens no slot and closes no frame. -/
theorem Lane.driveEdge_of_position {l : Lane} {position : Nat} (hframing : l.state = .running ∨ l.state = .stopping)
    (hposition : position = if l.half = .opening then l.position else l.position + 1)
    (hedge : l.half = .opening ∨ (l.half = .sampled ∧ l.owes = false ∧ l.position + 1 < l.cfg.frameLen ∧
      ¬(l.position + 1 < l.cfg.slotsLen ∧ (l.position + 1) % l.cfg.width = 0))) :
    l.driveEdge = ({ l with position := position } : Lane).drive := by
  rw [Lane.driveEdge_of_framing hframing]
  rcases hedge with hhalf | ⟨hhalf, howes, hlen, hslot⟩
  · rw [Lane.driveRunning_of_opening hhalf, hposition, if_pos hhalf]
  · rw [Lane.driveRunning_of_next hhalf howes hlen hslot, hposition, if_neg (by rw [hhalf]; exact nofun)]

/-- Settles O52: by the state and, in a frame, by what the edge closes. -/
theorem driveEdgePutsTheNextBitOnThePin : Obligations.DriveEdgePutsTheNextBitOnThePin := by
  intro s n l framed frame owesNothing
  have howes : owesNothing → l.owes = false := fun h => l.not_owes_iff.mpr h
  refine ⟨fun hoff => ?_, fun hseeking hnothing => ?_, fun hframing hbetween hedge => ?_,
    fun hrunning hrole hearly hhalf hbetween hnothing hlast => ?_⟩
  · rw [exec_driveEdge, Lane.driveEdge_of_off hoff, State.setLane_lane]
  · rw [exec_driveEdge, Lane.driveEdge_of_seeking hseeking (howes hnothing)]
  · intro position bit syncBegins syncLen left driven
    have hedge' := hedge.imp_right fun ⟨hhalf, hnothing, hrest⟩ => And.intro hhalf (And.intro (howes hnothing) hrest)
    have hlane := Lane.driveEdge_of_position (position := position) hframing rfl hedge'
    have hdriven := Lane.driveBit_eq (l := { l with position := position }) hbetween
    rw [exec_driveEdge, hlane]
    cases hrole : l.cfg.role with
    | follower => rw [Lane.drive_of_follower (l := { l with position := position }) hrole, hdriven]; rfl
    | master =>
      have hleft : left = if ({ l with position := position } : Lane).syncBegins = true then l.cfg.syncLen
          else l.syncLeft := by
        have hbegins := Lane.syncBegins_iff { l with position := position }
        by_cases hb : syncBegins
        · rw [if_pos (hbegins.mpr hb)]
          simp only [left, hb, if_true]
          rfl
        · rw [if_neg fun h => hb (hbegins.mp h)]
          simp only [left, hb, if_false]
      rw [Lane.drive_of_master (l := { l with position := position }) hrole hleft, hdriven]
      rfl
  · rw [exec_driveEdge, Lane.driveEdge_of_framing (.inl hrunning),
      Lane.driveRunning_of_close hrunning hhalf (howes hnothing) (by simp [LaneConfig.startsAtDrive, hrole, hearly]) hlast,
      Lane.drive_of_follower (l := { l with position := 0, between := true }) hrole,
      Lane.driveBit_between (l := { l with position := 0, between := true }) rfl]

/-! ## Sampling edges (R57, R61, R101, R113) -/

theorem exec_samplingEdge (s : State) (n : LaneId) (rx sync : Bool) :
    exec (.samplingEdge n rx sync) s = .next (s.setLane n ((s.lane n).samplingEdge rx sync)) := rfl

theorem Lane.samplingEdge_of_off {l : Lane} (h : l.state = .off) (rx sync : Bool) : l.samplingEdge rx sync = l := by
  simp only [Lane.samplingEdge, h]

theorem Lane.samplingEdge_of_framing {l : Lane} (h : l.state = .running ∨ l.state = .stopping) (rx sync : Bool) :
    l.samplingEdge rx sync = l.sampleRunning rx sync := by
  rcases h with h | h <;> simp only [Lane.samplingEdge, h]

theorem Lane.samplingEdge_of_seeking {l : Lane} (h : l.state = .arming ∨ l.state = .hunt) (howes : l.owes = false)
    (rx sync : Bool) :
    l.samplingEdge rx sync = { l.sampleSync sync with rxSample := rx, lastSync := l.lastSync.map (· + 1) } := by
  have hsample : l.sampleHunting rx sync =
      { l.sampleSync sync with rxSample := rx, lastSync := l.lastSync.map (· + 1) } := by
    simp only [Lane.sampleHunting, howes, Bool.false_eq_true, if_false]
  rcases h with h | h <;> simp only [Lane.samplingEdge, h, hsample]

/-- The receive pin at a sampling edge of a frame. -/
theorem Lane.sampleRx_eq {l : Lane} (hbetween : l.between = false) (rx : Bool) :
    l.sampleRx rx = { l with
      half := .sampled, rxSample := rx,
      rxBits := if l.position < l.cfg.slotsLen then l.rxBits + 1 else l.rxBits,
      rxCell := if l.position < l.cfg.slotsLen ∧ rx = true then l.rxCell ||| (1#32 <<< l.cfg.bitIndex l.rxBits)
        else l.rxCell } := by
  by_cases hin : l.position < l.cfg.slotsLen
  · have hslot : l.inSlot = true := l.inSlot_iff.mpr ⟨hbetween, hin⟩
    cases rx <;> simp [Lane.sampleRx, Lane.placeBit, hslot, hin]
  · have hslot : l.inSlot = false := by simp [Lane.inSlot, hin]
    simp [Lane.sampleRx, hslot, hin]

theorem Lane.sampleRx_of_between {l : Lane} (hbetween : l.between = true) (rx : Bool) :
    l.sampleRx rx = { l with half := .sampled, rxSample := rx } := by
  simp [Lane.sampleRx, Lane.inSlot, hbetween]

/-- Settles O53: by the state and, in a frame, by the role. -/
theorem samplingEdgePlacesTheBitAndFindsSync : Obligations.SamplingEdgePlacesTheBitAndFindsSync := by
  intro s n rx sync l framed
  refine ⟨fun hoff => ?_, fun hseeking harrival hcheck hbits => ?_, fun hframing hhalf hbetween => ?_,
    fun hframing hhalf hbetween hrole => ?_⟩
  · rw [exec_samplingEdge, Lane.samplingEdge_of_off hoff, State.setLane_lane]
  · rw [exec_samplingEdge, Lane.samplingEdge_of_seeking hseeking (l.not_owes_iff.mpr ⟨harrival, hcheck, hbits⟩)]
    rfl
  · intro bit sampled
    have hrx := Lane.sampleRx_eq hbetween rx
    have hcheck : l.isCheckPoint = (l.cfg.syncEarly && decide (l.position + 1 = framed + l.cfg.gap)) := by
      simp only [Lane.isCheckPoint, hbetween, Bool.false_or]
      rfl
    rw [exec_samplingEdge, Lane.samplingEdge_of_framing hframing]
    cases hrole : l.cfg.role with
    | master =>
      simp only [Lane.sampleRunning, hhalf, hrole, hrx]
      rfl
    | follower =>
      simp only [Lane.sampleRunning, hhalf, hrole, hcheck, hrx]
      rfl
  · have hcheck : l.isCheckPoint = true := by simp [Lane.isCheckPoint, hbetween]
    rw [exec_samplingEdge, Lane.samplingEdge_of_framing hframing]
    simp only [Lane.sampleRunning, hhalf, hrole, hcheck, Lane.sampleRx_of_between hbetween]
    rfl

/-! ## Slot starts (R95 to R99) -/

theorem Bank.entry_eq (b : Bank) (i : Fin 32) : Bank.entry b i.val = b[i] := by
  have hlen : i.val < b.toList.length := by simp
  rw [Bank.entry, List.getD_eq_getElem _ _ hlen]
  simp

theorem SlotEntry.rxTarget_eq (e : SlotEntry) : e.rxTarget = if e.rxKind = .ring then .ring e.rxRing else .ignore := by
  cases h : e.rxKind <;> simp [SlotEntry.rxTarget, h]

theorem State.postMark_eq (s : State) (n : LaneId) (i : Nat) (e : SlotEntry) :
    s.postMark n i e = { s with
      notices := if e.mark then s.notices.post ⟨.slotMark, .lane n, some (s.lane n).frameCount, BitVec.ofNat 8 i⟩
        else s.notices } := by
  cases h : e.mark <;> simp [State.postMark, h, State.post]

@[simp] theorem State.lane_transmitHalf (s : State) (n m : LaneId) (e : SlotEntry) :
    (s.transmitHalf n e).1.lane m = s.lane m := by
  rw [State.transmitHalf_frame]
  rfl

theorem State.transmitHalf_of_quiet {s : State} {n : LaneId} {e : SlotEntry} (h : e.txKind = .quiet) :
    s.transmitHalf n e = (s, .quiet) := by
  simp only [State.transmitHalf, h]

theorem State.transmitHalf_of_const {s : State} {n : LaneId} {e : SlotEntry} (h : e.txKind = .const) :
    s.transmitHalf n e = (s, .cell (lowBits (s.lane n).cfg.width e.const)) := by
  simp only [State.transmitHalf, h]

theorem State.transmitHalf_of_ring {s : State} {n : LaneId} {e : SlotEntry} (h : e.txKind = .ring) :
    s.transmitHalf n e = ((s.removeForLane e.txRing n).1, .cell (s.removeForLane e.txRing n).2) := by
  simp only [State.transmitHalf, h]

theorem exec_slotStart (s : State) (n : LaneId) : exec (.slotStart n) s = .next (s.slotStartEvent n) := rfl

theorem Lane.slotStartDue_iff (l : Lane) :
    l.slotStartDue = true ↔ (l.state = .running ∨ l.state = .stopping) ∧ l.half = .sampled ∧ l.between = false ∧
      l.owes = false ∧ l.position + 1 < l.cfg.slotsLen ∧ (l.position + 1) % l.cfg.width = 0 := by
  simp [Lane.slotStartDue, ← Lane.framing_iff, and_assoc]

/-- A slot start under a known entry (R95). -/
theorem State.slotStart_eq (s : State) (n : LaneId) (i : Fin 32) :
    s.slotStart n i.val =
      ((s.postMark n i.val (s.smap n).liveBank[i]).transmitHalf n (s.smap n).liveBank[i]).1.setLane n
        ((s.lane n).loadSlot
          ((s.postMark n i.val (s.smap n).liveBank[i]).transmitHalf n (s.smap n).liveBank[i]).2
          (s.smap n).liveBank[i].rxTarget) := by
  have hlane : ((s.postMark n i.val (s.smap n).liveBank[i]).transmitHalf n (s.smap n).liveBank[i]).1.lane n =
      s.lane n := by
    rw [State.lane_transmitHalf, State.postMark_frame]
    rfl
  simp only [State.slotStart, Bank.entry_eq, hlane]

/-- Settles O48: the transmit half by TxKind; the event by what makes it due. -/
theorem slotStartActsOnItsEntry : Obligations.SlotStartActsOnItsEntry := by
  refine ⟨?_, ?_⟩
  · intro s n i l e u loaded
    rw [State.slotStart_eq, State.postMark_eq, SlotEntry.rxTarget_eq]
    cases htx : e.txKind with
    | quiet => rw [State.transmitHalf_of_quiet htx]; rfl
    | const => rw [State.transmitHalf_of_const htx]; rfl
    | ring => rw [State.transmitHalf_of_ring htx]; rfl
  · intro s n hframing hhalf hbetween harrival hcheck hbits hlen hmod
    have hdue : (s.lane n).slotStartDue = true :=
      (s.lane n).slotStartDue_iff.mpr ⟨hframing, hhalf, hbetween,
        (s.lane n).not_owes_iff.mpr ⟨harrival, hcheck, hbits⟩, hlen, hmod⟩
    rw [exec_slotStart]
    simp only [State.slotStartEvent, hdue, if_true]
    rfl

/-! ## Slot ends (R102) -/

theorem exec_slotEnd (s : State) (n : LaneId) : exec (.slotEnd n) s = .next (s.slotEnd n) := rfl

@[simp] theorem State.lane_receiveHalf (s : State) (n m : LaneId) (target : RxTarget) (c : Cell) :
    (s.receiveHalf n target c).lane m = s.lane m := by
  cases target with
  | ignore => rfl
  | ring r =>
    simp only [State.receiveHalf]
    rw [State.appendClaim_frame]
    rfl

theorem State.slotEnd_of_due {s : State} {n : LaneId} (hframing : (s.lane n).state = .running ∨ (s.lane n).state = .stopping)
    (hbits : (s.lane n).rxBits = (s.lane n).cfg.width) :
    s.slotEnd n = (s.receiveHalf n (s.lane n).rxTarget (s.lane n).rxCell).setLane n (s.lane n).unloadSlot := by
  have hdue : ((s.lane n).framing && (s.lane n).slotEndDue) = true := by
    simp [(s.lane n).framing_iff.mpr hframing, Lane.slotEndDue, hbits]
  simp only [State.slotEnd, hdue, if_true, State.lane_receiveHalf]

/-- Settles O49: by the receive target. -/
theorem slotEndHandsOnTheCell : Obligations.SlotEndHandsOnTheCell := by
  intro s n hframing hbits l empty
  rw [exec_slotEnd, State.slotEnd_of_due hframing hbits]
  refine ⟨fun hignore => ?_, fun r hring => ?_⟩
  · rw [hignore]; rfl
  · rw [hring]; rfl

/-! ## The end of a stopping frame (R51) -/

theorem exec_endOfFrame (s : State) (n : LaneId) : exec (.endOfFrame n) s = .next (s.endOfFrame n) := rfl

/-- Settles O50: the premises are what makes the end of the frame due. -/
theorem endOfFrameCompletesTheStop : Obligations.EndOfFrameCompletesTheStop := by
  intro s n hstopping hhalf hbetween harrival hcheck hbits hlast
  have hend : (s.lane n).atFrameEnd = true :=
    (s.lane n).atFrameEnd_iff.mpr ⟨hhalf, hbetween, hlast, (s.lane n).not_owes_iff.mpr ⟨harrival, hcheck, hbits⟩⟩
  have hdue : (s.lane n).endOfFrameDue = true := by simp [Lane.endOfFrameDue, hstopping, hend]
  rw [exec_endOfFrame]
  simp only [State.endOfFrame, hdue, if_true, State.completeStop]
  rfl

end Sys2Proof.Machine
end

section
/-! PROOFS. Frame starts, lock, sync arrivals and check points, loss and the clock watch (R48, R49, R58 to R68, R71, R85). -/

namespace Sys2Proof.Machine

/-! ## Frame starts (R48, R68, R85) -/

/-- The state at a frame start, once its notices and its exchange are made and before the slot start of slot 0. -/
def State.frameOpened (s : State) (n : LaneId) : State :=
  ((s.setLane n (s.lane n).openFrame).postLock n (s.lane n).lockNotice).exchangeIfPending n

theorem State.frameStart_eq (s : State) (n : LaneId) : s.frameStart n = (s.frameOpened n).slotStart n 0 := rfl

theorem State.exchangeIfPending_of_pending {s : State} {n : LaneId} (h : (s.smap n).swapPending = true) :
    s.exchangeIfPending n = s.exchange n (some (s.lane n).frameCount) := if_pos h

theorem State.exchangeIfPending_of_idle {s : State} {n : LaneId} (h : (s.smap n).swapPending = false) :
    s.exchangeIfPending n = s := if_neg (by simp [h])

theorem State.lane_postLock (s : State) (n m : LaneId) (k : Option LockKind) : (s.postLock n k).lane m = s.lane m := by
  rw [State.postLock_frame]
  rfl

theorem State.smap_postLock (s : State) (n m : LaneId) (k : Option LockKind) : (s.postLock n k).smap m = s.smap m := by
  rw [State.postLock_frame]
  rfl

theorem State.ring_postLock (s : State) (n : LaneId) (k : Option LockKind) (r : RingId) :
    (s.postLock n k).ring r = s.ring r := by
  rw [State.postLock_frame]
  rfl

theorem State.notices_postLock (s : State) (n : LaneId) (k : Option LockKind) :
    (s.postLock n k).notices = match k with
      | none => s.notices
      | some .locked => s.notices.post ⟨.laneLocked, .lane n, some (s.lane n).frameCount, 0⟩
      | some .relocked => s.notices.post ⟨.laneRelocked, .lane n, some (s.lane n).frameCount, 0⟩ := by
  rcases k with _ | k
  · rfl
  · cases k <;> rfl

theorem State.lane_exchangeIfPending (s : State) (n m : LaneId) : (s.exchangeIfPending n).lane m = s.lane m := by
  rw [State.exchangeIfPending_frame]
  rfl

theorem State.lane_frameOpened_self (s : State) (n : LaneId) : (s.frameOpened n).lane n = (s.lane n).openFrame := by
  rw [State.frameOpened, State.lane_exchangeIfPending, State.lane_postLock, State.lane_setLane_self]

theorem State.lane_frameOpened_of_ne (s : State) {n m : LaneId} (h : m ≠ n) : (s.frameOpened n).lane m = s.lane m := by
  rw [State.frameOpened, State.lane_exchangeIfPending, State.lane_postLock, State.lane_setLane_of_ne s n m _ h]

theorem State.frameOpened_of_idle {s : State} {n : LaneId} (h : (s.smap n).swapPending = false) :
    s.frameOpened n = (s.setLane n (s.lane n).openFrame).postLock n (s.lane n).lockNotice :=
  State.exchangeIfPending_of_idle (by rw [State.smap_postLock]; exact h)

theorem State.frameOpened_of_pending {s : State} {n : LaneId} (h : (s.smap n).swapPending = true) :
    s.frameOpened n = ((s.setLane n (s.lane n).openFrame).postLock n (s.lane n).lockNotice).exchange n
      (some ((s.lane n).frameCount + 1)) := by
  rw [State.frameOpened, State.exchangeIfPending_of_pending (by rw [State.smap_postLock]; exact h), State.lane_postLock,
    State.lane_setLane_self]
  rfl

theorem State.smap_frameOpened_of_ne (s : State) {n m : LaneId} (h : m ≠ n) : (s.frameOpened n).smap m = s.smap m := by
  cases hpending : (s.smap n).swapPending with
  | false => rw [State.frameOpened_of_idle hpending, State.smap_postLock]; rfl
  | true => rw [State.frameOpened_of_pending hpending, State.smap_exchange_of_ne _ _ h, State.smap_postLock]; rfl

/-- The lock notice owed at a frame start, with the new FrameCount. -/
theorem State.notices_postLock_opened (s : State) (n : LaneId) :
    ((s.setLane n (s.lane n).openFrame).postLock n (s.lane n).lockNotice).notices =
      match (s.lane n).lockNotice with
        | none => s.notices
        | some .locked => s.notices.post ⟨.laneLocked, .lane n, some ((s.lane n).frameCount + 1), 0⟩
        | some .relocked => s.notices.post ⟨.laneRelocked, .lane n, some ((s.lane n).frameCount + 1), 0⟩ := by
  rw [State.notices_postLock, State.lane_setLane_self]
  rfl

theorem State.notices_frameOpened (s : State) (n : LaneId) :
    (s.frameOpened n).notices =
      if (s.smap n).swapPending then
        ((s.setLane n (s.lane n).openFrame).postLock n (s.lane n).lockNotice).notices.post
          ⟨.swapDone, .lane n, some ((s.lane n).frameCount + 1), 0⟩
      else ((s.setLane n (s.lane n).openFrame).postLock n (s.lane n).lockNotice).notices := by
  cases hpending : (s.smap n).swapPending with
  | false => rw [State.frameOpened_of_idle hpending]; rfl
  | true => rw [State.frameOpened_of_pending hpending, State.exchange_frame]; rfl

theorem State.frameOpened_frame (s : State) (n : LaneId) :
    s.frameOpened n = { s with
      lanes := (s.frameOpened n).lanes, maps := (s.frameOpened n).maps, rings := (s.frameOpened n).rings,
      notices := (s.frameOpened n).notices } := by
  simp only [State.frameOpened]
  rw [State.exchangeIfPending_frame, State.postLock_frame]
  rfl

/-- A seat reserved for the lane or held by it, after an exchange. -/
theorem Seat.take_release_eq (seat : Seat) (n : LaneId) (named : Bool) :
    (seat.takeBy n).releaseBy n named =
      if seat = .reserved n ∨ seat = .held (.lane n) then
        if named = true then .held (.lane n) else .free
      else seat := by
  by_cases hreserved : seat = .reserved n
  · cases named <;> simp [Seat.takeBy, Seat.releaseBy, hreserved]
  · by_cases hheld : seat = .held (.lane n)
    · cases named <;> simp [Seat.takeBy, Seat.releaseBy, hheld]
    · cases named <;> simp [Seat.takeBy, Seat.releaseBy, hreserved, hheld]

theorem State.seat_frameOpened {s : State} {n : LaneId} (h : (s.smap n).swapPending = true) (r : RingId) (side : Side) :
    ((s.frameOpened n).ring r).seat side =
      if (s.ring r).seat side = .reserved n ∨ (s.ring r).seat side = .held (.lane n) then
        if bankNames (s.smap n).editBank (s.lane n).cfg.slots side r = true then .held (.lane n) else .free
      else (s.ring r).seat side := by
  rw [State.frameOpened_of_pending h, State.seat_exchange, Seat.take_release_eq, State.ring_postLock,
    State.smap_postLock, State.lane_postLock, State.lane_setLane_self]
  rfl

theorem State.sameButSeats_frameOpened {s : State} {n : LaneId} (h : (s.smap n).swapPending = true) (r : RingId) :
    (s.ring r).SameButSeats ((s.frameOpened n).ring r) := by
  have hexchange := ((s.setLane n (s.lane n).openFrame).postLock n (s.lane n).lockNotice).sameButSeats_exchange n
    (some ((s.lane n).frameCount + 1)) r
  rw [State.ring_postLock, ← State.frameOpened_of_pending h] at hexchange
  exact hexchange

theorem exec_frameStart (s : State) (n : LaneId) : exec (.frameStart n) s = .next (s.frameStartEvent n) := rfl

/-- The drive edge and the sampling edge within position 0 (R48, R49), after slot 0 has started. -/
theorem Lane.atSampledStart_of_loaded {l : Lane} (hbetween : l.between = false) (hposition : l.position = 0)
    (hslots : 0 < l.cfg.slotsLen) (htx : l.txBits = 0) (hrxCell : l.rxCell = 0) (hrxBits : l.rxBits = 0) :
    l.atSampledStart = { l with
      half := .sampled, rxBits := 1, rxCell := if l.rxSample then 1#32 <<< l.cfg.bitIndex 0 else 0,
      txPin := match l.txCell with
        | .quiet => .hiZ
        | .cell c => if c.getLsbD (l.cfg.bitIndex 0) then .high else .low,
      txBits := match l.txCell with
        | .quiet => 0
        | .cell _ => 1 } := by
  have hslot : ¬l.cfg.slotsLen ≤ l.position := by omega
  have hzero : ∀ x : Cell, 0 ||| x = x := fun _ => BitVec.zero_or
  rw [Lane.atSampledStart, Lane.driveBit_eq hbetween, if_neg hslot, if_neg hslot]
  simp only [Lane.placeBit, hrxCell, hrxBits, htx, hzero, Nat.zero_add] <;> rfl

theorem LaneConfig.bitIndex_zero (c : LaneConfig) : c.bitIndex 0 = match c.bitOrder with
    | .msbFirst => c.width - 1
    | .lsbFirst => 0 := by
  cases h : c.bitOrder <;> simp [LaneConfig.bitIndex, h]

/-- Settles O47: the opening, the event, and the edge of a frame start taken at a sampling edge. -/
theorem frameStartIsTakenAndOrdersItsParts : Obligations.FrameStartIsTakenAndOrdersItsParts := by
  refine ⟨?opening, ?event, ?sampled⟩
  case opening =>
    intro s n l frame pending locked
    refine ⟨s.frameOpened n, s.frameStart_eq n, fun m hm => s.lane_frameOpened_of_ne hm,
      fun m hm => s.smap_frameOpened_of_ne hm, ?_, s.lane_frameOpened_self n, fun hidle => ?_, fun hpending => ?_⟩
    · have hframe := s.frameOpened_frame n
      rw [State.notices_frameOpened, State.notices_postLock_opened] at hframe
      exact hframe
    · rw [State.frameOpened_of_idle hidle]
      exact ⟨State.smap_postLock _ n n _, by rw [State.postLock_frame]; rfl⟩
    · refine ⟨?_, fun r side => ⟨State.sameButSeats_frameOpened hpending r, State.seat_frameOpened hpending r side⟩⟩
      rw [State.frameOpened_of_pending hpending, State.smap_exchange_self, State.smap_postLock]
      rfl
  case event =>
    intro s n hrunning hstarts hhalf hbetween harrival hcheck hbits hlast
    have hend : (s.lane n).atFrameEnd = true :=
      (s.lane n).atFrameEnd_iff.mpr ⟨hhalf, hbetween, hlast, (s.lane n).not_owes_iff.mpr ⟨harrival, hcheck, hbits⟩⟩
    have hdrive : (s.lane n).cfg.startsAtDrive = true := by simpa [LaneConfig.startsAtDrive] using hstarts
    have hdue : (s.lane n).frameStartDue = true := (s.lane n).frameStartDue_iff.mpr ⟨hrunning, hdrive, hend⟩
    rw [exec_frameStart, State.frameStartEvent, if_pos hdue]
  case sampled =>
    intro s n hslots u l bit
    obtain ⟨tx, rx, hlane⟩ := s.lane_frameStart_self n
    have hl : l = (s.lane n).openFrame.loadSlot tx rx := hlane
    have hat := Lane.atSampledStart_of_loaded (l := (s.lane n).openFrame.loadSlot tx rx) rfl rfl hslots rfl rfl rfl
    rw [LaneConfig.bitIndex_zero] at hat
    have hstart : s.frameStartSampled n = u.setLane n l.atSampledStart := rfl
    rw [hstart, hl, hat]
    rfl

/-! ## Lock (R60) -/

theorem State.lock_of_early {s : State} {n : LaneId} (h : (s.lane n).cfg.syncEarly = true) (k : LockKind) :
    s.lock n k = s.setLane n ((s.lane n).toLocked k) := by
  simp only [State.lock, h, if_true]

theorem State.lock_of_late {s : State} {n : LaneId} (h : (s.lane n).cfg.syncEarly = false) (k : LockKind) :
    s.lock n k = (s.setLane n ((s.lane n).toLocked k)).frameStartSampled n := by
  simp only [State.lock, h, Bool.false_eq_true, if_false]

theorem State.lane_frameStartSampled_self (s : State) (n : LaneId) :
    ∃ tx rx, (s.frameStartSampled n).lane n = ((s.lane n).openFrame.loadSlot tx rx).atSampledStart := by
  obtain ⟨tx, rx, hlane⟩ := s.lane_frameStart_self n
  refine ⟨tx, rx, ?_⟩
  rw [State.frameStartSampled, State.lane_setLane_self, hlane]

theorem State.sameLanesBut_frameStartSampled (s : State) (n : LaneId) : s.SameLanesBut (s.frameStartSampled n) n :=
  fun m hm => (State.lane_setLane_of_ne _ n m _ hm).trans (s.lane_frameStart_of_ne hm)

/-- What a frame start taken at a sampling edge leaves of the lane's record. -/
theorem Lane.atSampledStart_frame (l : Lane) :
    l.atSampledStart = { l with
      txPin := l.atSampledStart.txPin, txBits := l.atSampledStart.txBits, rxCell := l.atSampledStart.rxCell,
      rxBits := l.atSampledStart.rxBits, half := .sampled } := by
  rw [Lane.atSampledStart, l.driveBit_frame]
  rfl

theorem State.sameLanesBut_lock (s : State) (n : LaneId) (k : LockKind) : s.SameLanesBut (s.lock n k) n := by
  intro m hm
  cases hearly : (s.lane n).cfg.syncEarly with
  | true => rw [State.lock_of_early hearly, State.lane_setLane_of_ne s n m _ hm]
  | false => rw [State.lock_of_late hearly, State.sameLanesBut_frameStartSampled _ n m hm, State.lane_setLane_of_ne s n m _ hm]

/-- The record of a lane at lock: with SYNC_EARLY off, after the frame start (R60). -/
theorem State.lane_lock_self (s : State) (n : LaneId) (k : LockKind) :
    ((s.lock n k).lane n).state = .running ∧ ((s.lock n k).lane n).missedRun = 0 ∧
    ((s.lock n k).lane n).cfg = (s.lane n).cfg ∧
    ((s.lane n).cfg.syncEarly = false →
      ((s.lock n k).lane n).frameCount = (s.lane n).frameCount + 1 ∧ ((s.lock n k).lane n).position = 0 ∧
      ((s.lock n k).lane n).lockNotice = none) := by
  cases hearly : (s.lane n).cfg.syncEarly with
  | true =>
    rw [State.lock_of_early hearly, State.lane_setLane_self]
    exact ⟨rfl, rfl, rfl, fun h => Bool.noConfusion h⟩
  | false =>
    obtain ⟨tx, rx, hlane⟩ := (s.setLane n ((s.lane n).toLocked k)).lane_frameStartSampled_self n
    rw [State.lane_setLane_self, Lane.atSampledStart_frame] at hlane
    rw [State.lock_of_late hearly, hlane]
    exact ⟨rfl, rfl, rfl, fun _ => ⟨rfl, rfl, rfl⟩⟩

/-- A slot start of an entry without a transmit ring reaches the lane and the notices alone. -/
theorem State.slotStart_of_no_claim {s : State} {n : LaneId} {i : Fin 32} (htx : (s.smap n).liveBank[i].txKind ≠ .ring) :
    s.slotStart n i.val = { s with
      lanes := (s.slotStart n i.val).lanes,
      notices := if (s.smap n).liveBank[i].mark then
          s.notices.post ⟨.slotMark, .lane n, some (s.lane n).frameCount, BitVec.ofNat 8 i.val⟩
        else s.notices } := by
  rw [State.slotStart_eq, State.postMark_eq]
  cases hkind : (s.smap n).liveBank[i].txKind with
  | quiet => rw [State.transmitHalf_of_quiet hkind]; rfl
  | const => rw [State.transmitHalf_of_const hkind]; rfl
  | ring => exact absurd hkind htx

/-- Without a mark it reaches the lane alone. -/
theorem State.slotStart_of_silent {s : State} {n : LaneId} {i : Fin 32} (htx : (s.smap n).liveBank[i].txKind ≠ .ring)
    (hmark : (s.smap n).liveBank[i].mark = false) :
    s.slotStart n i.val = { s with lanes := (s.slotStart n i.val).lanes } := by
  have hstart := State.slotStart_of_no_claim htx
  rw [hmark, if_neg Bool.false_ne_true] at hstart
  exact hstart

theorem State.frameStart_of_silent {s : State} {n : LaneId} (hidle : (s.smap n).swapPending = false)
    (htx : (s.smap n).liveBank[0].txKind ≠ .ring) (hmark : (s.smap n).liveBank[0].mark = false) :
    s.frameStart n = { s with lanes := (s.frameStart n).lanes, notices := (s.frameOpened n).notices } := by
  have hmap : (s.frameOpened n).smap n = s.smap n := by
    rw [State.frameOpened_of_idle hidle]
    exact State.smap_postLock _ n n _
  have hsilent := State.slotStart_of_silent (s := s.frameOpened n) (n := n) (i := 0) (by rw [hmap]; exact htx)
    (by rw [hmap]; exact hmark)
  rw [State.frameStart_eq]
  rw [State.frameOpened_of_idle hidle, State.postLock_frame] at hsilent ⊢
  exact hsilent

/-- The frame start of a lane that has locked, at a slot 0 that neither marks nor transmits from a ring. -/
theorem State.frameStart_setLane_of_silent {s : State} {n : LaneId} {l : Lane} {k : LockKind}
    (hidle : (s.smap n).swapPending = false) (htx : (s.smap n).liveBank[0].txKind ≠ .ring)
    (hmark : (s.smap n).liveBank[0].mark = false) (hlock : l.lockNotice = some k) :
    (s.setLane n l).frameStart n = { s with
      lanes := ((s.setLane n l).frameStart n).lanes,
      notices := s.notices.post ⟨k.noticeKind, .lane n, some (l.frameCount + 1), 0⟩ } := by
  have hnotices : ((s.setLane n l).frameOpened n).notices =
      s.notices.post ⟨k.noticeKind, .lane n, some (l.frameCount + 1), 0⟩ := by
    rw [State.notices_frameOpened, State.smap_setLane, hidle, if_neg Bool.false_ne_true, State.notices_postLock_opened,
      State.lane_setLane_self, hlock]
    cases k <;> rfl
  have hsilent := State.frameStart_of_silent (s := s.setLane n l) (n := n) hidle htx hmark
  rw [hnotices] at hsilent
  exact hsilent

/-- The opening of a frame with a lock notice owed and no exchange. -/
theorem State.frameOpened_setLane_of_idle {s : State} {n : LaneId} {l : Lane} {k : LockKind}
    (hidle : (s.smap n).swapPending = false) (hlock : l.lockNotice = some k) :
    (s.setLane n l).frameOpened n = { s.setLane n l.openFrame with
      notices := s.notices.post ⟨k.noticeKind, .lane n, some (l.frameCount + 1), 0⟩ } := by
  rw [State.frameOpened_of_idle (s := s.setLane n l) hidle, State.lane_setLane_self, hlock, State.setLane_setLane]
  simp only [State.postLock, State.lane_setLane_self]
  rfl

/-- Settles O45: by SYNC_EARLY. -/
theorem lockTakesTheLaneToRunning : Obligations.LockTakesTheLaneToRunning := by
  intro s n k l t locked
  obtain ⟨hstate, hmissed, hcfg, hstarted⟩ := s.lane_lock_self n k
  refine ⟨hstate, hmissed, hcfg, s.sameLanesBut_lock n k, fun hearly => ?_, fun hearly => ?_⟩
  · have hlocked : (s.lane n).toLocked k = { l with
        state := .running, missedRun := 0, lockNotice := some k, half := .sampled, between := false,
        position := l.cfg.frameLen - 1 } := by
      simp only [Lane.toLocked]
      rw [if_pos hearly]
    show s.lock n k = _
    rw [State.lock_of_early hearly, hlocked]
    rfl
  · have hlocked : s.setLane n ((s.lane n).toLocked k) = locked 0 := by
      simp only [Lane.toLocked, locked]
      rw [if_neg (by rw [hearly]; exact Bool.false_ne_true)]
    have ht : t = (locked 0).frameStartSampled n := by
      rw [← hlocked]
      exact State.lock_of_late hearly k
    obtain ⟨hcount, hposition, hnotice⟩ := hstarted hearly
    refine ⟨ht, hcount, hposition, hnotice, fun hidle htx hmark => ?_⟩
    have hsilent := State.frameStart_setLane_of_silent (l := (s.lane n).toLocked k) hidle htx hmark rfl
    rw [hlocked] at hsilent
    rw [ht, State.frameStartSampled, hsilent]
    cases k <;> rfl

/-! ## Entry to HUNT and the end of a stop (R51, R65 to R67) -/

theorem State.enterHunt_of_relock {s : State} {n : LaneId} {cause : LossCause}
    (h : ((s.lane n).toHunt cause).goodSyncs = (s.lane n).cfg.relock) :
    s.enterHunt n cause = ((s.setLane n ((s.lane n).toHunt cause)).post
      ⟨.laneLost, .lane n, some (s.lane n).frameCount, BitVec.ofNat 8 cause.code⟩).lock n .relocked := by
  simp only [State.enterHunt, State.lane_post, State.lane_setLane_self]
  exact if_pos h

theorem State.enterHunt_of_no_relock {s : State} {n : LaneId} {cause : LossCause}
    (h : ((s.lane n).toHunt cause).goodSyncs ≠ (s.lane n).cfg.relock) :
    s.enterHunt n cause = (s.setLane n ((s.lane n).toHunt cause)).post
      ⟨.laneLost, .lane n, some (s.lane n).frameCount, BitVec.ofNat 8 cause.code⟩ := by
  simp only [State.enterHunt, State.lane_post, State.lane_setLane_self]
  exact if_neg h

theorem exec_syncArrival (s : State) (n : LaneId) : exec (.syncArrival n) s = .next (s.syncArrival n) := rfl

/-- An arrival in ARMING or HUNT (R59, R60). -/
theorem State.syncArrival_of_seeking {s : State} {n : LaneId} (harrival : (s.lane n).arrivalDue = true)
    (hcheck : (s.lane n).checkDue = false) (hrole : (s.lane n).cfg.role = .follower)
    (hstate : (s.lane n).state = .arming ∨ (s.lane n).state = .hunt) :
    s.syncArrival n =
      if (s.lane n).countSync.goodSyncs = (s.lane n).cfg.relock then
        (s.setLane n (s.lane n).countSync).lock n (if (s.lane n).state = .arming then .locked else .relocked)
      else s.setLane n (s.lane n).countSync := by
  rcases hstate with hstate | hstate <;> simp [State.syncArrival, harrival, hcheck, hrole, hstate]

section
variable {s : State} {n : LaneId} (harrival : (s.lane n).arrivalDue = true) (hcheck : (s.lane n).checkDue = false)
  (hrole : (s.lane n).cfg.role = .follower)
include harrival hcheck hrole

theorem State.syncArrival_of_running (hstate : (s.lane n).state = .running) :
    s.syncArrival n = (s.setLane n { s.lane n with arrivalDue := false }).enterHunt n .misaligned := by
  simp [State.syncArrival, harrival, hcheck, hrole, hstate]

theorem State.syncArrival_of_stopping (hstate : (s.lane n).state = .stopping) :
    s.syncArrival n = (s.setLane n { s.lane n with arrivalDue := false }).earlyStop n .misaligned := by
  simp [State.syncArrival, harrival, hcheck, hrole, hstate]

theorem State.syncArrival_of_off (hstate : (s.lane n).state = .off) : s.syncArrival n = s := by
  simp [State.syncArrival, harrival, hcheck, hrole, hstate]

end

/-- An early stop after the lane's record has taken the value `l` (R67). -/
theorem State.earlyStop_setLane (s : State) (n : LaneId) (l : Lane) (cause : LossCause) :
    (s.setLane n l).earlyStop n cause = ({ s.setLane n { l with lastCause := cause } with
      notices := s.notices.post ⟨.laneStopped, .lane n, some l.frameCount, 1⟩ } : State).enterOff n := by
  simp only [State.earlyStop, State.lane_setLane_self, State.setLane_setLane, State.postStopped]
  rfl

/-- Settles O44: by the lane's state. -/
theorem syncArrivalCountsOrMisaligns : Obligations.SyncArrivalCountsOrMisaligns := by
  intro s n harrival hcheck hrole l good counted lost
  have hlane : (s.setLane n { l with arrivalDue := false }).lane n = { l with arrivalDue := false } :=
    s.lane_setLane_self n _
  have hlost : ((s.setLane n { l with arrivalDue := false }).setLane n
      (({ l with arrivalDue := false } : Lane).toHunt .misaligned)).post
        ⟨.laneLost, .lane n, some l.frameCount, BitVec.ofNat 8 LossCause.misaligned.code⟩ = lost := by
    rw [State.setLane_setLane]
    rfl
  rw [exec_syncArrival]
  refine ⟨fun hstate hgood => ?_, fun hstate hgood => ?_, fun hstate hrelock => ?_, fun hstate hrelock => ?_,
    fun hstate => ?_, fun hstate => ?_⟩
  · have hmiss : ¬(s.lane n).countSync.goodSyncs = (s.lane n).cfg.relock := hgood
    rw [State.syncArrival_of_seeking harrival hcheck hrole hstate, if_neg hmiss]
    rfl
  · have hlock : (s.lane n).countSync.goodSyncs = (s.lane n).cfg.relock := hgood
    rw [State.syncArrival_of_seeking harrival hcheck hrole hstate, if_pos hlock]
    rfl
  · rw [State.syncArrival_of_running harrival hcheck hrole hstate, State.enterHunt_of_no_relock (by rw [hlane]; exact fun h => hrelock h.symm), hlane, hlost]
  · rw [State.syncArrival_of_running harrival hcheck hrole hstate, State.enterHunt_of_relock (by rw [hlane]; exact hrelock.symm), hlane, hlost]
  · rw [State.syncArrival_of_stopping harrival hcheck hrole hstate, State.earlyStop_setLane]
    exact ⟨_, rfl, fun m hm => s.lane_setLane_of_ne n m _ hm, rfl, s.lane_setLane_self n _⟩
  · rw [State.syncArrival_of_off harrival hcheck hrole hstate]

end Sys2Proof.Machine
end

section
/-! PROOFS. Check points and the clock watch (R51, R58, R61 to R67, R71). -/

namespace Sys2Proof.Machine

theorem exec_syncCheckPoint (s : State) (n : LaneId) : exec (.syncCheckPoint n) s = .next (s.syncCheckPoint n) := rfl

theorem exec_clockWatchExpiry (s : State) (n : LaneId) : exec (.clockWatchExpiry n) s = .next (s.watchExpiry n) := rfl

/-- Entry to HUNT for want of syncs or of the bit clock, after the lane's record has taken the value `l` (R65). -/
theorem State.enterHunt_setLane {s : State} {n : LaneId} {l : Lane} {cause : LossCause} (hcause : cause ≠ .misaligned)
    (hrelock : l.cfg.relock ≠ 0) :
    (s.setLane n l).enterHunt n cause = { s.setLane n (l.toHunt cause) with
      notices := s.notices.post ⟨.laneLost, .lane n, some l.frameCount, BitVec.ofNat 8 cause.code⟩ } := by
  have hgood : (l.toHunt cause).goodSyncs = 0 := if_neg hcause
  rw [State.enterHunt_of_no_relock (by rw [State.lane_setLane_self, hgood]; exact hrelock.symm), State.lane_setLane_self,
    State.setLane_setLane]
  rfl

theorem State.completeStop_setLane (s : State) (n : LaneId) (l : Lane) :
    (s.setLane n l).completeStop n = ({ s.setLane n l with
      notices := s.notices.post ⟨.laneStopped, .lane n, some l.frameCount, 0⟩ } : State).enterOff n := by
  simp only [State.completeStop, State.postStopped, State.lane_setLane_self]
  rfl

theorem State.afterCheck_setLane (s : State) (n : LaneId) (l : Lane) :
    (s.setLane n l).afterCheck n =
      if l.cfg.syncEarly then s.setLane n l else (s.setLane n l).frameStartSampled n := by
  simp only [State.afterCheck, State.lane_setLane_self]

section
variable {s : State} {n : LaneId} (hcheck : (s.lane n).checkDue = true) (hbits : (s.lane n).rxBits ≠ (s.lane n).cfg.width)
  (hrole : (s.lane n).cfg.role = .follower)
include hcheck hbits hrole

theorem State.syncCheckPoint_of_running (hstate : (s.lane n).state = .running) :
    s.syncCheckPoint n =
      if (s.lane n).arrivalDue then (s.setLane n { (s.lane n).checked with missedRun := 0 }).afterCheck n
      else if (s.lane n).missedRun + 1 ≤ (s.lane n).cfg.flywheel then
        (s.setLane n { (s.lane n).checked with missedRun := (s.lane n).missedRun + 1 }).afterCheck n
      else (s.setLane n (s.lane n).checked).enterHunt n .missed := by
  have htaken : (s.lane n).checkTaken = true := by simp [Lane.checkTaken, Lane.slotEndDue, hcheck, hbits, hrole]
  simp only [State.syncCheckPoint, htaken, hstate, if_true]

theorem State.syncCheckPoint_of_stopping (hstate : (s.lane n).state = .stopping) :
    s.syncCheckPoint n =
      if (s.lane n).between then (s.setLane n (s.lane n).checked).completeStop n
      else s.setLane n { (s.lane n).checked with
        missedRun := if (s.lane n).arrivalDue then 0 else (s.lane n).missedRun } := by
  have htaken : (s.lane n).checkTaken = true := by simp [Lane.checkTaken, Lane.slotEndDue, hcheck, hbits, hrole]
  simp only [State.syncCheckPoint, htaken, hstate, if_true]

end

/-- Settles O46: by the lane's state, the arrival and the run of misses. -/
theorem syncCheckPointTakesOrMissesTheFrame : Obligations.SyncCheckPointTakesOrMissesTheFrame := by
  intro s n hcheck hbits hrole l taken
  refine ⟨fun hstate harrival => ?_, fun hstate harrival hmiss => ?_, fun hstate harrival hmiss hrelock => ?_,
    fun hstate hbetween => ?_, fun hstate hbetween => ?_⟩
  · rw [exec_syncCheckPoint, State.syncCheckPoint_of_running hcheck hbits hrole hstate, if_pos harrival,
      State.afterCheck_setLane]
    rfl
  · rw [exec_syncCheckPoint, State.syncCheckPoint_of_running hcheck hbits hrole hstate,
      if_neg (ne_true_of_eq_false harrival), if_pos hmiss, State.afterCheck_setLane]
    rfl
  · rw [exec_syncCheckPoint, State.syncCheckPoint_of_running hcheck hbits hrole hstate,
      if_neg (ne_true_of_eq_false harrival), if_neg (Nat.not_le_of_lt hmiss),
      State.enterHunt_setLane (l := (s.lane n).checked) (cause := .missed) nofun hrelock]
    have hself := s.lane_setLane_self n ((s.lane n).checked.toHunt .missed)
    refine ⟨_, rfl, fun m hm => s.lane_setLane_of_ne n m _ hm, rfl, ?_⟩
    simp only [State.lane_with_notices, hself]
    exact ⟨rfl, rfl, rfl, rfl, rfl, rfl, rfl, rfl⟩
  · rw [exec_syncCheckPoint, State.syncCheckPoint_of_stopping hcheck hbits hrole hstate, if_pos hbetween,
      State.completeStop_setLane]
    exact ⟨_, rfl, fun m hm => s.lane_setLane_of_ne n m _ hm, rfl, s.lane_setLane_self n _⟩
  · rw [exec_syncCheckPoint, State.syncCheckPoint_of_stopping hcheck hbits hrole hstate,
      if_neg (ne_true_of_eq_false hbetween)]
    rfl

/-! ## The clock watch (R58, R71) -/

section
variable {s : State} {n : LaneId} (hwatch : (s.lane n).watchRunning = true) (hrole : (s.lane n).cfg.role = .follower)
include hwatch hrole

theorem State.watchExpiry_of_seeking (hstate : (s.lane n).state = .arming ∨ (s.lane n).state = .hunt) :
    s.watchExpiry n = s.setLane n { s.lane n with watchRunning := false, goodSyncs := 0, lastSync := none } := by
  rcases hstate with hstate | hstate <;> simp [State.watchExpiry, hwatch, hrole, hstate]

theorem State.watchExpiry_of_running (hstate : (s.lane n).state = .running) :
    s.watchExpiry n = (s.setLane n { s.lane n with watchRunning := false }).enterHunt n .clockLost := by
  simp [State.watchExpiry, hwatch, hrole, hstate]

theorem State.watchExpiry_of_stopping (hstate : (s.lane n).state = .stopping) :
    s.watchExpiry n = (s.setLane n { s.lane n with watchRunning := false }).earlyStop n .clockLost := by
  simp [State.watchExpiry, hwatch, hrole, hstate]

end

/-- Settles O51: by the lane's state. -/
theorem clockWatchExpiryActsByState : Obligations.ClockWatchExpiryActsByState := by
  intro s n hwatch hrole l
  refine ⟨fun hstate => ?_, fun hstate hrelock => ?_, fun hstate => ?_⟩
  · rw [exec_clockWatchExpiry, State.watchExpiry_of_seeking hwatch hrole hstate]
  · rw [exec_clockWatchExpiry, State.watchExpiry_of_running hwatch hrole hstate,
      State.enterHunt_setLane (l := { s.lane n with watchRunning := false }) (cause := .clockLost) nofun hrelock]
    have hself := s.lane_setLane_self n (({ s.lane n with watchRunning := false } : Lane).toHunt .clockLost)
    refine ⟨_, rfl, fun m hm => s.lane_setLane_of_ne n m _ hm, rfl, ?_⟩
    simp only [State.lane_with_notices, hself]
    exact ⟨rfl, rfl, rfl, rfl, rfl, rfl, rfl, rfl, rfl, rfl, rfl⟩
  · rw [exec_clockWatchExpiry, State.watchExpiry_of_stopping hwatch hrole hstate, State.earlyStop_setLane]
    exact ⟨_, rfl, fun m hm => s.lane_setLane_of_ne n m _ hm, rfl, s.lane_setLane_self n _⟩

end Sys2Proof.Machine
end

section
/-! PROOFS. What the claims of the ring table leave: the seats of every ring, and the requests of the channels that do
not make the claim (R14 to R22, R135 to R137). -/

namespace Sys2Proof.Machine

/-! ## Seating -/

/-- The two records of a ring agree on what the seats rest on. -/
structure Ring.SameSeating (g g' : Ring) : Prop where
  state : g'.state = g.state
  width : g'.width = g.width
  cap : g'.cap = g.cap
  producer : g'.producer = g.producer
  consumer : g'.consumer = g.consumer

theorem Ring.SameSeating.refl (g : Ring) : g.SameSeating g := ⟨rfl, rfl, rfl, rfl, rfl⟩

theorem Ring.SameSeating.trans {g h k : Ring} (h1 : g.SameSeating h) (h2 : h.SameSeating k) : g.SameSeating k :=
  ⟨h2.state.trans h1.state, h2.width.trans h1.width, h2.cap.trans h1.cap, h2.producer.trans h1.producer,
   h2.consumer.trans h1.consumer⟩

theorem Ring.SameSeating.seat {g g' : Ring} (h : g.SameSeating g') (side : Side) : g'.seat side = g.seat side := by
  cases side with
  | producer => exact h.producer
  | consumer => exact h.consumer

/-- The seats of every ring and the attachments of every agent stay, and so do lanes, slot maps and ports. -/
structure State.SameSeating (s t : State) : Prop where
  ring : ∀ r, (s.ring r).SameSeating (t.ring r)
  record : ∀ ch, (t.chan ch).record = (s.chan ch).record
  lanes : t.lanes = s.lanes
  maps : t.maps = s.maps
  pr : t.pr = s.pr
  pw : t.pw = s.pw

theorem State.SameSeating.refl (s : State) : s.SameSeating s := ⟨fun _ => .refl _, fun _ => rfl, rfl, rfl, rfl, rfl⟩

theorem State.SameSeating.trans {s t u : State} (h1 : s.SameSeating t) (h2 : t.SameSeating u) : s.SameSeating u :=
  ⟨fun r => (h1.ring r).trans (h2.ring r), fun ch => (h2.record ch).trans (h1.record ch), h2.lanes.trans h1.lanes,
   h2.maps.trans h1.maps, h2.pr.trans h1.pr, h2.pw.trans h1.pw⟩

theorem State.sameSeating_post (s : State) (x : Notice) : s.SameSeating (s.post x) :=
  ⟨fun _ => .refl _, fun _ => rfl, rfl, rfl, rfl, rfl⟩

theorem State.sameSeating_with_mem (s : State) (m : List Host.Cell) : s.SameSeating { s with mem := m } :=
  ⟨fun _ => .refl _, fun _ => rfl, rfl, rfl, rfl, rfl⟩

theorem State.sameSeating_setRing {s : State} {r : RingId} {g : Ring} (h : (s.ring r).SameSeating g) :
    s.SameSeating (s.setRing r g) := by
  refine ⟨fun q => ?_, fun _ => rfl, rfl, rfl, rfl, rfl⟩
  by_cases hq : q = r
  · subst hq
    rw [State.ring_setRing_self]
    exact h
  · rw [State.ring_setRing_of_ne _ _ _ _ hq]
    exact .refl _

theorem State.sameSeating_setChan {s : State} {ch : ChanId} {c : Channel} (h : c.record = (s.chan ch).record) :
    s.SameSeating (s.setChan ch c) := by
  refine ⟨fun _ => .refl _, fun d => ?_, rfl, rfl, rfl, rfl⟩
  by_cases hd : d = ch
  · subst hd
    rw [State.chan_setChan_self]
    exact h
  · rw [State.chan_setChan_of_ne _ _ _ _ hd]

theorem State.sameSeating_rezone (s : State) (r : RingId) : s.SameSeating (s.rezone r) := by
  have hset : s.SameSeating (s.setRing r { s.ring r with zone := (s.ring r).zoneNow }) :=
    State.sameSeating_setRing ⟨rfl, rfl, rfl, rfl, rfl⟩
  simp only [State.rezone]
  split
  · exact .refl s
  · split
    · exact hset.trans (State.sameSeating_post _ _)
    · exact hset.trans (State.sameSeating_post _ _)
    · exact hset

theorem State.sameSeating_evaluate (s : State) (ch : ChanId) : s.SameSeating (s.evaluate ch) := by
  simp only [State.evaluate]
  split
  · exact .refl s
  · split
    · exact State.sameSeating_setChan rfl
    · exact .refl s

theorem State.sameSeating_reportTo (s : State) (r : RingId) (ch : ChanId) : s.SameSeating (s.reportTo r ch) := by
  unfold State.reportTo
  split
  · exact s.sameSeating_evaluate ch
  · exact .refl s

theorem State.sameSeating_report (s : State) (r : RingId) : s.SameSeating (s.report r) :=
  (s.sameSeating_reportTo r 0).trans (State.sameSeating_reportTo _ r 1)

theorem State.sameSeating_storeCell (s : State) (r : RingId) (c : Cell) : s.SameSeating (s.storeCell r c) := by
  have hmem := s.sameSeating_with_mem (Memory.writeCell s.mem (s.ring r).base (s.ring r).width (s.ring r).tail c)
  have hset := hmem.trans (State.sameSeating_setRing (r := r) (g := (s.ring r).stored) ⟨rfl, rfl, rfl, rfl, rfl⟩)
  exact (hset.trans (State.sameSeating_rezone _ r)).trans (State.sameSeating_report _ r)

theorem State.sameSeating_displaceCell (s : State) (r : RingId) (c : Cell) : s.SameSeating (s.displaceCell r c) := by
  have hmem := s.sameSeating_with_mem (Memory.writeCell s.mem (s.ring r).base (s.ring r).width (s.ring r).tail c)
  exact hmem.trans (State.sameSeating_setRing (r := r)
    (g := { s.ring r with head := (s.ring r).next (s.ring r).head, tail := (s.ring r).next (s.ring r).tail })
    ⟨rfl, rfl, rfl, rfl, rfl⟩)

theorem State.sameSeating_primeFull (s : State) (r : RingId) : s.SameSeating (s.primeFull r) :=
  State.sameSeating_setRing ⟨rfl, rfl, rfl, rfl, rfl⟩

theorem State.sameSeating_countOverrun (s : State) (r : RingId) (n : LaneId) : s.SameSeating (s.countOverrun r n) := by
  have hset : s.SameSeating (s.setRing r
      { s.ring r with overrunCount := satIncWord (s.ring r).overrunCount, overrunEpisode := true }) :=
    State.sameSeating_setRing ⟨rfl, rfl, rfl, rfl, rfl⟩
  simp only [State.countOverrun]
  split
  · exact hset
  · exact hset.trans (State.sameSeating_post _ _)

theorem State.sameSeating_countUnderrun (s : State) (r : RingId) (n : LaneId) : s.SameSeating (s.countUnderrun r n) := by
  simp only [State.countUnderrun]
  split
  · exact State.sameSeating_setRing ⟨rfl, rfl, rfl, rfl, rfl⟩
  · refine .trans (State.sameSeating_setRing ?_) (State.sameSeating_post _ _)
    exact ⟨rfl, rfl, rfl, rfl, rfl⟩

theorem State.sameSeating_removeCell (s : State) (r : RingId) : s.SameSeating (s.removeCell r) :=
  ((State.sameSeating_setRing (g := (s.ring r).removed (s.headCell r)) ⟨rfl, rfl, rfl, rfl, rfl⟩).trans
    (State.sameSeating_rezone _ r)).trans (State.sameSeating_report _ r)

/-- What an append claim does: nothing, the storing of its cell, or the books of a full ring (R14, R15, R22). -/
theorem State.appendClaim_cases (s : State) (r : RingId) (c : Cell) (who : Appender) :
    (s.appendClaim r c who).1 = s ∨
    ((s.ring r).level < (s.ring r).cap ∧ (s.appendClaim r c who).1 = s.storeCell r c) ∨
    (s.appendClaim r c who).1 = s.primeFull r ∨
    (∃ n, (s.appendClaim r c who).1 = (s.primeFull r).countOverrun r n) ∨
    ∃ n, (s.appendClaim r c who).1 = ((s.displaceCell r c).primeFull r).countOverrun r n := by
  simp only [State.appendClaim]
  split
  · exact .inl rfl
  · split
    · rename_i hroom
      exact .inr (.inl ⟨hroom, rfl⟩)
    · split
      · exact .inr (.inr (.inl rfl))
      · rename_i n
        split
        · exact .inr (.inr (.inr (.inl ⟨n, rfl⟩)))
        · exact .inr (.inr (.inr (.inr ⟨n, rfl⟩)))

theorem State.sameSeating_appendClaim (s : State) (r : RingId) (c : Cell) (who : Appender) :
    s.SameSeating (s.appendClaim r c who).1 := by
  rcases s.appendClaim_cases r c who with h | ⟨_, h⟩ | h | ⟨n, h⟩ | ⟨n, h⟩ <;> rw [h]
  · exact .refl s
  · exact s.sameSeating_storeCell r c
  · exact s.sameSeating_primeFull r
  · exact (s.sameSeating_primeFull r).trans (State.sameSeating_countOverrun _ r n)
  · exact ((s.sameSeating_displaceCell r c).trans (State.sameSeating_primeFull _ r)).trans
      (State.sameSeating_countOverrun _ r n)

theorem State.removeForHost_cases (s : State) (r : RingId) :
    (s.removeForHost r).1 = s ∨ (0 < (s.ring r).level ∧ (s.removeForHost r).1 = s.removeCell r) := by
  simp only [State.removeForHost]
  split
  · exact .inl rfl
  · split
    · rename_i hcells
      exact .inr ⟨hcells, rfl⟩
    · exact .inl rfl

theorem State.removeForLane_cases (s : State) (r : RingId) (n : LaneId) :
    (s.removeForLane r n).1 = s ∨ (0 < (s.ring r).level ∧ (s.removeForLane r n).1 = s.removeCell r) ∨
      (s.removeForLane r n).1 = s.countUnderrun r n := by
  simp only [State.removeForLane]
  split
  · exact .inl rfl
  · split
    · exact .inl rfl
    · split
      · rename_i hcells
        exact .inr (.inl ⟨hcells, rfl⟩)
      · exact .inr (.inr rfl)

theorem State.sameSeating_removeForHost (s : State) (r : RingId) : s.SameSeating (s.removeForHost r).1 := by
  rcases s.removeForHost_cases r with h | ⟨_, h⟩ <;> rw [h]
  · exact .refl s
  · exact s.sameSeating_removeCell r

theorem State.sameSeating_removeForLane (s : State) (r : RingId) (n : LaneId) :
    s.SameSeating (s.removeForLane r n).1 := by
  rcases s.removeForLane_cases r n with h | ⟨_, h⟩ | h <;> rw [h]
  · exact .refl s
  · exact s.sameSeating_removeCell r
  · exact s.sameSeating_countUnderrun r n

/-! ## Requests -/

/-- A channel's record is well formed, and its ring is OPEN and backs its grant (R135 to R137). -/
def State.RequestOk (s : State) (ch : ChanId) : Prop :=
  (s.chan ch).Ok ∧ ∀ a, (s.chan ch).attach = some a →
    (s.ring a.ring).state = .opened ∧ (s.chan ch).grant ≤ (s.ring a.ring).available a.side

/-- What leaves a channel's record, and takes nothing from the ring that it is seated at. -/
theorem State.RequestOk.of_available {s t : State} {ch : ChanId} (h : s.RequestOk ch) (hchan : t.chan ch = s.chan ch)
    (hrings : ∀ a, (s.chan ch).attach = some a → (t.ring a.ring).state = (s.ring a.ring).state ∧
      (s.ring a.ring).available a.side ≤ (t.ring a.ring).available a.side) : t.RequestOk ch := by
  obtain ⟨hok, hbacked⟩ := h
  rw [State.RequestOk, hchan]
  refine ⟨hok, fun a ha => ?_⟩
  obtain ⟨hopen, hgrant⟩ := hbacked a ha
  obtain ⟨hstate, hmore⟩ := hrings a ha
  exact ⟨hstate.trans hopen, hgrant.trans hmore⟩

theorem State.RequestOk.of_rings {s t : State} {ch : ChanId} (h : s.RequestOk ch) (hchan : t.chan ch = s.chan ch)
    (hrings : t.rings = s.rings) : t.RequestOk ch :=
  h.of_available hchan fun a _ => by
    have hring : t.ring a.ring = s.ring a.ring := congrArg (·[a.ring.val]) hrings
    rw [hring]
    exact ⟨rfl, Nat.le_refl _⟩

theorem State.RequestOk.post {s : State} {ch : ChanId} (x : Notice) (h : s.RequestOk ch) : (s.post x).RequestOk ch :=
  h.of_rings rfl rfl

/-- A grant of what the channel wants (R135). -/
theorem Channel.Ok.granted {c : Channel} (h : c.Ok) (hactive : c.state = .active) (hgrant : c.grant = 0) :
    ({ c with grant := c.want } : Channel).Ok := by
  obtain ⟨hlow, hhigh, _, hcount, hattach, _, htally, hgap⟩ := h
  have hwant : c.want ≤ c.quantum := by
    rw [Channel.want_eq]
    split
    · exact Nat.le_refl _
    · exact Nat.min_le_left _ _
  refine ⟨hlow, hhigh, hwant, hcount, hattach, fun _ => hactive, fun hmode _ => ⟨?_, (htally hmode hactive).2⟩,
    fun hg => absurd (hgap hg) (by omega)⟩
  show c.want ≤ c.tally.toNat
  have hmode : c.mode = .count := hmode
  simp only [Channel.want, hmode]
  exact Nat.min_le_right _ _

theorem State.RequestOk.evaluate {s : State} {ch : ChanId} (d : ChanId) (h : s.RequestOk ch) :
    (s.evaluate d).RequestOk ch := by
  have hrings : (s.evaluate d).rings = s.rings := by rw [State.evaluate_eq_setChan]; rfl
  by_cases hd : ch = d
  · subst hd
    cases ha : (s.chan ch).attach with
    | none => simpa only [State.evaluate, ha] using h
    | some a =>
      have hself := State.chan_evaluate_of_attached ha
      split at hself
      · rename_i hwanted
        obtain ⟨hactive, hgrant, hroom⟩ := hwanted
        rw [State.RequestOk, hself]
        refine ⟨h.1.granted hactive hgrant, fun b hb => ?_⟩
        have hring : (s.evaluate ch).ring b.ring = s.ring b.ring := congrArg (·[b.ring.val]) hrings
        obtain rfl : a = b := Option.some.inj (ha.symm.trans hb)
        rw [hring]
        exact ⟨(h.2 a ha).1, hroom⟩
      · exact h.of_rings hself hrings
  · refine h.of_rings ?_ hrings
    rw [State.evaluate_eq_setChan, State.chan_setChan_of_ne _ _ _ _ hd]

theorem State.RequestOk.report {s : State} {ch : ChanId} (r : RingId) (h : s.RequestOk ch) :
    (s.report r).RequestOk ch := by
  have hreport : ∀ {u : State} (d : ChanId), u.RequestOk ch → (u.reportTo r d).RequestOk ch := fun d hu => by
    unfold State.reportTo
    split
    · exact hu.evaluate d
    · exact hu
  exact hreport 1 (hreport 0 h)

/-- A ring's record changes, with what a channel seated there finds available on its side no less than before. -/
theorem State.RequestOk.setRing {s : State} {ch : ChanId} {r : RingId} {g : Ring} (h : s.RequestOk ch)
    (hstate : g.state = (s.ring r).state)
    (hmore : ∀ side, (s.chan ch).attach = some ⟨r, side⟩ → (s.ring r).available side ≤ g.available side) :
    (s.setRing r g).RequestOk ch :=
  h.of_available rfl fun a ha => by
    by_cases ha' : a.ring = r
    · subst ha'
      rw [State.ring_setRing_self]
      exact ⟨hstate, hmore a.side ha⟩
    · rw [State.ring_setRing_of_ne _ _ _ _ ha']
      exact ⟨rfl, Nat.le_refl _⟩

theorem State.RequestOk.rezone {s : State} {ch : ChanId} (r : RingId) (h : s.RequestOk ch) : (s.rezone r).RequestOk ch := by
  have hset : (s.setRing r { s.ring r with zone := (s.ring r).zoneNow }).RequestOk ch :=
    h.setRing rfl fun side _ => by cases side <;> exact Nat.le_refl _
  simp only [State.rezone]
  split
  · exact h
  · split
    · exact hset.post _
    · exact hset.post _
    · exact hset

/-- A change of a ring's books: its level and its capacity stay. -/
theorem State.RequestOk.keepBooks {s : State} {ch : ChanId} {r : RingId} {g : Ring} (h : s.RequestOk ch)
    (hstate : g.state = (s.ring r).state) (hlevel : g.level = (s.ring r).level) (hcap : g.cap = (s.ring r).cap) :
    (s.setRing r g).RequestOk ch :=
  h.setRing hstate fun side _ => by
    rw [Ring.available_eq, Ring.available_eq, hlevel, hcap]

/-- A cell stored in a ring whose producer seat the channel does not hold. -/
theorem State.RequestOk.storeCell {s : State} {ch : ChanId} {r : RingId} (c : Cell) (h : s.RequestOk ch)
    (hseat : (s.chan ch).attach ≠ some ⟨r, .producer⟩) : (s.storeCell r c).RequestOk ch := by
  have hmem : ({ s with mem := Memory.writeCell s.mem (s.ring r).base (s.ring r).width (s.ring r).tail c } : State).RequestOk
      ch := h.of_rings rfl rfl
  refine ((hmem.setRing (r := r) (g := (s.ring r).stored) rfl fun side hside => ?_).rezone r).report r
  cases side with
  | producer => exact absurd hside hseat
  | consumer => exact Nat.le_succ _

/-- A cell taken from a ring whose consumer seat the channel does not hold. -/
theorem State.RequestOk.removeCell {s : State} {ch : ChanId} {r : RingId} (h : s.RequestOk ch)
    (hseat : (s.chan ch).attach ≠ some ⟨r, .consumer⟩) : (s.removeCell r).RequestOk ch := by
  refine ((h.setRing (r := r) (g := (s.ring r).removed (s.headCell r)) rfl fun side hside => ?_).rezone r).report r
  cases side with
  | producer => exact Nat.sub_le_sub_left (Nat.sub_le _ 1) _
  | consumer => exact absurd hside hseat

theorem State.RequestOk.countOverrun {s : State} {ch : ChanId} (r : RingId) (n : LaneId) (h : s.RequestOk ch) :
    (s.countOverrun r n).RequestOk ch := by
  simp only [State.countOverrun]
  split
  · exact h.keepBooks rfl rfl rfl
  · refine State.RequestOk.post _ (h.keepBooks ?_ ?_ ?_) <;> rfl

theorem State.RequestOk.countUnderrun {s : State} {ch : ChanId} (r : RingId) (n : LaneId) (h : s.RequestOk ch) :
    (s.countUnderrun r n).RequestOk ch := by
  simp only [State.countUnderrun]
  split
  · exact h.keepBooks rfl rfl rfl
  · refine State.RequestOk.post _ (h.keepBooks ?_ ?_ ?_) <;> rfl

theorem State.RequestOk.primeFull {s : State} {ch : ChanId} (r : RingId) (h : s.RequestOk ch) :
    (s.primeFull r).RequestOk ch := h.keepBooks rfl rfl rfl

theorem State.RequestOk.displaceCell {s : State} {ch : ChanId} (r : RingId) (c : Cell) (h : s.RequestOk ch) :
    (s.displaceCell r c).RequestOk ch := by
  have hmem : ({ s with mem := Memory.writeCell s.mem (s.ring r).base (s.ring r).width (s.ring r).tail c } : State).RequestOk
      ch := h.of_rings rfl rfl
  exact hmem.keepBooks rfl rfl rfl

theorem State.RequestOk.appendClaim {s : State} {ch : ChanId} {r : RingId} (c : Cell) (who : Appender)
    (h : s.RequestOk ch) (hseat : (s.chan ch).attach ≠ some ⟨r, .producer⟩) :
    (s.appendClaim r c who).1.RequestOk ch := by
  rcases s.appendClaim_cases r c who with hclaim | ⟨_, hclaim⟩ | hclaim | ⟨n, hclaim⟩ | ⟨n, hclaim⟩ <;> rw [hclaim]
  · exact h
  · exact h.storeCell c hseat
  · exact h.primeFull r
  · exact (h.primeFull r).countOverrun r n
  · exact ((h.displaceCell r c).primeFull r).countOverrun r n

theorem State.RequestOk.removeForHost {s : State} {ch : ChanId} {r : RingId} (h : s.RequestOk ch)
    (hseat : (s.chan ch).attach ≠ some ⟨r, .consumer⟩) : (s.removeForHost r).1.RequestOk ch := by
  rcases s.removeForHost_cases r with hclaim | ⟨_, hclaim⟩ <;> rw [hclaim]
  · exact h
  · exact h.removeCell hseat

theorem State.RequestOk.removeForLane {s : State} {ch : ChanId} {r : RingId} (n : LaneId) (h : s.RequestOk ch)
    (hseat : (s.chan ch).attach ≠ some ⟨r, .consumer⟩) : (s.removeForLane r n).1.RequestOk ch := by
  rcases s.removeForLane_cases r n with hclaim | ⟨_, hclaim⟩ | hclaim <;> rw [hclaim]
  · exact h
  · exact h.removeCell hseat
  · exact h.countUnderrun r n

end Sys2Proof.Machine
end

section
/-! PROOFS. LANE_START (R50). -/

namespace Sys2Proof.Machine

/-! ## Slot starts and frame starts leave the seats -/

theorem State.sameSeating_transmitHalf (s : State) (n : LaneId) (e : SlotEntry) :
    s.SameSeating (s.transmitHalf n e).1 := by
  cases htx : e.txKind with
  | quiet => rw [State.transmitHalf_of_quiet htx]; exact .refl s
  | const => rw [State.transmitHalf_of_const htx]; exact .refl s
  | ring => rw [State.transmitHalf_of_ring htx]; exact s.sameSeating_removeForLane e.txRing n

theorem State.sameSeating_postMark (s : State) (n : LaneId) (i : Nat) (e : SlotEntry) :
    s.SameSeating (s.postMark n i e) := by
  unfold State.postMark
  split
  · exact s.sameSeating_post _
  · exact .refl s

/-- The claim of a slot start moves no seat. -/
theorem State.ring_slotStart (s : State) (n : LaneId) (i : Nat) (r : RingId) :
    (s.ring r).SameSeating ((s.slotStart n i).ring r) :=
  ((s.sameSeating_postMark n i _).trans (State.sameSeating_transmitHalf _ n _)).ring r

/-! ## LANE_START -/

theorem exec_laneStart (s : State) : exec .laneStart s = .next (arrive 0x31 laneStartOwner s) := rfl

theorem laneStartOwner_of_on {s : State} {n : LaneId} (hn : s.win.arg0.toNat = n.val) (hon : (s.lane n).state ≠ .off) :
    laneStartOwner s = (s, .plain .laneState) :=
  (onLane_of_lane _ hn).trans (if_pos hon)

theorem laneStartOwner_of_off {s : State} {n : LaneId} (hn : s.win.arg0.toNat = n.val) (hoff : (s.lane n).state = .off) :
    laneStartOwner s = match (s.lane n).cfg.role with
      | .master => (s.startMaster n, .plain .done)
      | .follower => (s.startFollower n, .plain .done) :=
  (onLane_of_lane _ hn).trans (if_neg (not_not_intro hoff))

/-- A master's record at its start, before its first frame opens (R50). -/
def Lane.mastered (l : Lane) : Lane := { l.cleared with state := .running, lockNotice := some .locked }

/-- The state at a master's first frame start, before the slot start of slot 0. -/
def State.masterOpened (s : State) (n : LaneId) : State :=
  { s.setLane n (s.lane n).mastered.openFrame with notices := s.notices.post ⟨.laneLocked, .lane n, some 1, 0⟩ }

theorem State.startMaster_eq {s : State} {n : LaneId} (hidle : (s.smap n).swapPending = false) :
    s.startMaster n = ((s.masterOpened n).slotStart n 0).setLane n (((s.masterOpened n).slotStart n 0).lane n).drive := by
  have hopened : (s.setLane n (s.lane n).mastered).frameOpened n = s.masterOpened n :=
    State.frameOpened_setLane_of_idle (l := (s.lane n).mastered) hidle rfl
  have hstart := (s.setLane n (s.lane n).mastered).frameStart_eq n
  rw [hopened] at hstart
  rw [← hstart]
  rfl

/-- What a master's first drive edge makes of a record that a slot start has loaded (R50, R54, R55). -/
theorem Lane.drive_of_started {l : Lane} (hrole : l.cfg.role = .master) (hposition : l.position = 0)
    (hleft : l.syncLeft = 0) :
    (l.cfg.syncEarly = false → l.drive.fsyncPin = (if 0 < l.cfg.syncLen then .high else .low) ∧
      l.drive.syncLeft = l.cfg.syncLen - 1) ∧
    (l.cfg.syncEarly = true → l.cfg.frameLen ≠ 1 → l.drive.fsyncPin = .low ∧ l.drive.syncLeft = 0) := by
  rw [Lane.drive_of_master hrole rfl]
  refine ⟨fun hearly => ?_, fun hearly hlen => ?_⟩
  · have hbegins : l.syncBegins = true := l.syncBegins_iff.mpr (.inl ⟨hearly, hposition⟩)
    simp only [hbegins, if_true, and_self]
  · have hnot : ¬l.syncBegins = true := fun h => by
      rcases l.syncBegins_iff.mp h with ⟨hlate, _⟩ | ⟨_, _, hlast⟩
      · rw [hearly] at hlate
        exact Bool.noConfusion hlate
      · omega
    simp only [hnot, Bool.false_eq_true, if_false, hleft, Nat.lt_irrefl, Nat.zero_sub, and_self]

/-- What a drive edge leaves of a lane's record, and its half. -/
theorem Lane.drive_keeps (l : Lane) :
    l.drive.cfg = l.cfg ∧ l.drive.state = l.state ∧ l.drive.frameCount = l.frameCount ∧
    l.drive.position = l.position ∧ l.drive.lastCause = l.lastCause ∧ l.drive.missedRun = l.missedRun ∧
    l.drive.goodSyncs = l.goodSyncs ∧ l.drive.lastSync = l.lastSync ∧ l.drive.half = .driven := by
  rw [l.drive_frame]
  exact ⟨rfl, rfl, rfl, rfl, rfl, rfl, rfl, rfl, rfl⟩

/-- A master's drive edge in a slot of which no bit has been driven. -/
theorem Lane.drive_first_bit {l : Lane} (hrole : l.cfg.role = .master) (hbetween : l.between = false)
    (hslot : l.position < l.cfg.slotsLen) (hbits : l.txBits = 0) :
    l.drive = { l with
      half := .driven, bclkPin := l.drive.bclkPin, fsyncPin := l.drive.fsyncPin, syncLeft := l.drive.syncLeft,
      txPin := match l.txCell with
        | .quiet => .hiZ
        | .cell c => if c.getLsbD (l.cfg.bitIndex 0) then .high else .low,
      txBits := match l.txCell with
        | .quiet => 0
        | .cell _ => 1 } := by
  have hgap : ¬l.cfg.slotsLen ≤ l.position := Nat.not_le_of_lt hslot
  have hbit := Lane.driveBit_eq hbetween
  simp only [hgap, if_false, hbits, Nat.zero_add] at hbit
  have hwatch : l.drive.watchRunning = l.watchRunning := by
    rw [Lane.drive_of_master hrole rfl, l.driveBit_frame]
  have hframe := l.drive_frame
  rw [hbit, hwatch] at hframe
  exact hframe

/-- Settles O24: the answer by the lane's state and role; a master's first frame start and drive edge. -/
theorem laneStartArmsAFollowerAndRunsAMaster : Obligations.LaneStartArmsAFollowerAndRunsAMaster := by
  refine ⟨fun s hs => ⟨fun hbad => ?_, fun n hn => ⟨fun hon => ?_, fun hoff hrole => ?_⟩⟩, ?_⟩
  · rw [exec_laneStart]
    exact next_arrive_onLane_of_badLane _ hs hbad
  · rw [exec_laneStart]
    exact next_arrive_of_unchanged hs (laneStartOwner_of_on (s := s.setCmd 0x31) hn hon)
  · have howner : laneStartOwner (s.setCmd 0x31) = ((s.setCmd 0x31).startFollower n, .plain .done) := by
      rw [laneStartOwner_of_off (s := s.setCmd 0x31) hn hoff, State.lane_setCmd, hrole]
    rw [exec_laneStart, arrive_of_accepts hs, howner]
    have hself := s.lane_setLane_self n { (s.lane n).cleared with state := .arming, watchRunning := true }
    have hlane : (((s.setCmd 0x31).startFollower n).answer (.plain .done)).lane n =
        { (s.lane n).cleared with state := .arming, watchRunning := true } := hself
    refine ⟨_, rfl, rfl, fun m hm => s.lane_setLane_of_ne n m _ hm, ?_⟩
    rw [hlane]
    exact ⟨rfl, rfl, rfl, rfl, rfl, rfl, rfl, rfl, rfl, rfl, rfl, rfl⟩
  · intro s n hs hn hoff hrole hidle e frame syncLen locked u bit
    have hopened : (s.setCmd 0x31).masterOpened n = locked := rfl
    have howner : laneStartOwner (s.setCmd 0x31) = (u.setLane n (u.lane n).drive, .plain .done) := by
      rw [laneStartOwner_of_off (s := s.setCmd 0x31) hn hoff, State.lane_setCmd, hrole]
      dsimp only
      rw [State.startMaster_eq (s := s.setCmd 0x31) hidle, hopened]
    obtain ⟨tx, rx, hload⟩ := locked.lane_slotStart_self n 0
    have hself : locked.lane n = (s.lane n).mastered.openFrame := s.lane_setLane_self n _
    rw [hself] at hload
    have hu : u.lane n = (s.lane n).mastered.openFrame.loadSlot tx rx := hload
    have hlane : ((u.setLane n (u.lane n).drive).answer (.plain .done)).lane n = (u.lane n).drive :=
      u.lane_setLane_self n _
    have hframe : u = { locked with rings := u.rings, notices := u.notices, chans := u.chans, lanes := u.lanes } :=
      locked.slotStart_frame n 0
    have hwin : u.win = locked.win := by rw [hframe]
    have hothers : ∀ m, m ≠ n → u.lane m = s.lane m := fun m hm =>
      (locked.lane_slotStart_of_ne 0 hm).trans (s.lane_setLane_of_ne n m _ hm)
    have hseats : ∀ r, (s.ring r).SameSeating (u.ring r) := locked.ring_slotStart n 0
    have hclaimless : e.txKind ≠ .ring → u = { locked with
        lanes := u.lanes,
        notices := if e.mark then locked.notices.post ⟨.slotMark, .lane n, some 1, 0⟩ else locked.notices } := fun htx => by
      have hstart := State.slotStart_of_no_claim (s := locked) (n := n) (i := 0) htx
      rw [hself] at hstart
      exact hstart
    clear_value u
    have hmaster : (u.lane n).cfg.role = .master := by rw [hu]; exact hrole
    have hdrive := Lane.drive_of_master hmaster rfl
    obtain ⟨hlate, hearly⟩ := Lane.drive_of_started hmaster (by rw [hu]; rfl) (by rw [hu]; rfl)
    have hcfg : (u.lane n).cfg = (s.lane n).cfg := by rw [hu]; rfl
    rw [exec_laneStart, arrive_of_accepts hs, howner]
    refine ⟨_, rfl, ?_, fun hslots => ?_, ?_, fun m hm => ?_, ?_⟩
    · rw [State.answer, State.win_setLane, hwin]
      rfl
    · have hfirst := Lane.drive_first_bit hmaster (by rw [hu]; rfl) (by rw [hu]; exact hslots) (by rw [hu]; rfl)
      have hbit : (u.lane n).cfg.bitIndex 0 = bit := by
        rw [hcfg]
        exact LaneConfig.bitIndex_zero _
      rw [hbit] at hfirst
      rw [hlane]
      exact hfirst
    · rw [State.answer, State.win_setLane, hwin]
      rw [hframe]
      rfl
    · exact (u.lane_setLane_of_ne n m _ hm).trans (hothers m hm)
    · obtain ⟨hkcfg, hkstate, hkcount, hkposition, hkcause, hkmissed, hkgood, hksync, hkhalf⟩ := (u.lane n).drive_keeps
      rw [hlane]
      refine ⟨hkcfg.trans hcfg, by rw [hkstate, hu]; rfl, by rw [hkcount, hu]; rfl, by rw [hkposition, hu]; rfl,
        by rw [hkcause, hu]; rfl, by rw [hkmissed, hu]; rfl, by rw [hkgood, hu]; rfl, by rw [hksync, hu]; rfl, hkhalf,
        ?_, fun h => ?_, fun h hlen => ?_, fun r => ⟨(hseats r).producer, (hseats r).consumer⟩, fun htx => ?_⟩
      · rw [hdrive]
        exact congrArg LaneConfig.driveLevel hcfg
      · rw [hcfg] at hlate
        exact hlate h
      · rw [hcfg] at hearly
        exact hearly h hlen
      · rw [State.answer, hclaimless htx]
        exact ⟨rfl, rfl, rfl⟩

end Sys2Proof.Machine
end

section
/-! PROOFS. Seats, attachment records, reservations, live banks, targets, requests and ports agree (R26 to R41, R137);
and every access of a port or a channel keeps it so. -/

namespace Sys2Proof.Machine

/-! ## The clauses of the invariant that speak of seats -/

/-- Who is seated where, and what rests on it but for the slots in flight. -/
structure State.Seated (s : State) : Prop where
  agents : s.AgentsSeated
  laneSeats : s.LanesSeated
  reservations : s.ReservationsOk
  laneRings : s.LaneRingsFit
  requests : ∀ ch, s.RequestOk ch
  ports : s.PortsOk

/-- And the slots in flight: a frame start exchanges banks before its slot start gives the lane a new target. -/
structure State.Linked (s : State) : Prop extends s.Seated where
  targets : s.TargetsSeated

theorem Ring.seat_reset (side : Side) : Ring.reset.seat side = .free := by cases side <;> rfl

/-- A ring of which a seat is taken is OPEN. -/
theorem State.opened_of_taken {s : State} {r : RingId} {side : Side} (hrings : s.RingsOk)
    (h : (s.ring r).seat side ≠ .free) : (s.ring r).state = .opened := by
  by_contra hclosed
  have hreset := (hrings r).1 (RingState.closed_of_ne_opened hclosed)
  rw [hreset, Ring.seat_reset] at h
  exact h rfl

theorem State.Inv.linked {s : State} (h : s.Inv) : s.Linked where
  agents := h.agents
  laneSeats := h.laneSeats
  reservations := h.reservations
  laneRings := h.laneRings
  targets := h.targets
  requests ch := by
    refine ⟨h.channels ch, fun a ha => ?_⟩
    have hseat : (s.ring a.ring).seat a.side = .held (.agent (.dma ch)) := (h.agents (.dma ch) a.ring a.side).1.mpr ha
    refine ⟨State.opened_of_taken h.rings (by rw [hseat]; exact nofun), ?_⟩
    by_cases hgrant : 0 < (s.chan ch).grant
    · exact (h.grants ch a ha hgrant).2
    · omega
  ports := h.ports

theorem State.Linked.channels {s : State} (h : s.Linked) : s.ChannelsOk := fun ch => (h.requests ch).1

theorem State.Linked.grants {s : State} (h : s.Linked) : s.GrantsBacked := fun ch a ha _ => (h.requests ch).2 a ha

/-- A seat that another holds is not a channel's. -/
theorem State.Seated.not_seated {s : State} (h : s.Seated) {r : RingId} {side : Side} {x : Holder} {ch : ChanId}
    (hseat : (s.ring r).seat side = .held x) (hx : x ≠ .agent (.dma ch)) : (s.chan ch).attach ≠ some ⟨r, side⟩ := by
  intro ha
  have hheld := (h.agents (.dma ch) r side).1.mpr ha
  rw [hseat] at hheld
  exact hx (Seat.held.inj hheld)

/-! ## Transfer along a step that moves no seat -/

/-- The seats, the attachments, the lanes and the slot maps stay; requests and ports are kept. -/
theorem State.Seated.of_seats {s t : State} (h : s.Seated) (hring : ∀ r, (s.ring r).SameSeating (t.ring r))
    (hattach : ∀ a, t.attachOf a = s.attachOf a) (hlanes : ∀ n, t.lane n = s.lane n) (hmaps : ∀ n, t.smap n = s.smap n)
    (hrequests : ∀ ch, t.RequestOk ch) (hports : t.PortsOk) : t.Seated where
  agents a r side := by
    rw [(hring r).seat side, hattach]
    exact h.agents a r side
  laneSeats n r side := by
    rw [(hring r).seat side, hlanes, hmaps]
    exact h.laneSeats n r side
  reservations n := by
    rw [hlanes, hmaps]
    obtain ⟨hoff, hnamed, htaken⟩ := h.reservations n
    refine ⟨hoff, fun r side => ?_, fun hpending r side => ?_⟩
    · rw [(hring r).seat side]
      exact hnamed r side
    · rw [(hring r).seat side]
      exact htaken hpending r side
  laneRings n r side := by
    rw [(hring r).seat side, (hring r).state, (hring r).width, hlanes]
    exact h.laneRings n r side
  requests := hrequests
  ports := hports

theorem State.Linked.of_seats {s t : State} (h : s.Linked) (hring : ∀ r, (s.ring r).SameSeating (t.ring r))
    (hattach : ∀ a, t.attachOf a = s.attachOf a) (hlanes : ∀ n, t.lane n = s.lane n) (hmaps : ∀ n, t.smap n = s.smap n)
    (hrequests : ∀ ch, t.RequestOk ch) (hports : t.PortsOk) : t.Linked where
  toSeated := h.toSeated.of_seats hring hattach hlanes hmaps hrequests hports
  targets n r := by
    rw [(hring r).producer, hlanes]
    exact h.targets n r

theorem State.SameSeating.attachOf {s t : State} (h : s.SameSeating t) (a : Agent) : t.attachOf a = s.attachOf a := by
  cases a with
  | pr => exact congrArg ReadPort.attach h.pr
  | pw => exact congrArg WritePort.attach h.pw
  | dma ch => exact congrArg AttachRecord.current (h.record ch)

theorem State.SameSeating.portsOk {s t : State} (h : s.SameSeating t) (hs : s.PortsOk) : t.PortsOk := by
  obtain ⟨hlatch, hstaging⟩ := hs
  rw [State.PortsOk, h.pr, h.pw]
  refine ⟨fun hl => ?_, fun hl => ?_⟩
  · obtain ⟨a, ha, hwidth⟩ := hlatch hl
    exact ⟨a, ha, (h.ring a.ring).width.trans hwidth⟩
  · obtain ⟨a, ha, hwidth⟩ := hstaging hl
    exact ⟨a, ha, (h.ring a.ring).width.trans hwidth⟩

theorem State.Seated.of_sameSeating {s t : State} (h : s.Seated) (hs : s.SameSeating t)
    (hrequests : ∀ ch, t.RequestOk ch) : t.Seated :=
  h.of_seats hs.ring hs.attachOf (fun n => congrArg (·[n.val]) hs.lanes) (fun n => congrArg (·[n.val]) hs.maps) hrequests
    (hs.portsOk h.ports)

theorem State.Linked.of_sameSeating {s t : State} (h : s.Linked) (hs : s.SameSeating t)
    (hrequests : ∀ ch, t.RequestOk ch) : t.Linked :=
  h.of_seats hs.ring hs.attachOf (fun n => congrArg (·[n.val]) hs.lanes) (fun n => congrArg (·[n.val]) hs.maps) hrequests
    (hs.portsOk h.ports)

/-- What is no part of the rings, the lanes, the slot maps, the ports and the channels. -/
theorem State.Linked.of_same {s t : State} (h : s.Linked) (hrings : t.rings = s.rings) (hlanes : t.lanes = s.lanes)
    (hmaps : t.maps = s.maps) (hchans : t.chans = s.chans) (hpr : t.pr = s.pr) (hpw : t.pw = s.pw) : t.Linked := by
  have hchan : ∀ ch, t.chan ch = s.chan ch := fun ch => congrArg (·[ch.val]) hchans
  have hring : ∀ r, t.ring r = s.ring r := fun r => congrArg (·[r.val]) hrings
  refine h.of_sameSeating ⟨fun r => ?_, fun ch => by rw [hchan], hlanes, hmaps, hpr, hpw⟩
    fun ch => (h.requests ch).of_rings (hchan ch) hrings
  rw [hring]
  exact .refl _

theorem State.Linked.post {s : State} (h : s.Linked) (x : Notice) : (s.post x).Linked := h.of_same rfl rfl rfl rfl rfl rfl

theorem State.Linked.drives {s : State} (h : s.Linked) (w : Word) : (s.drives w).Linked :=
  h.of_same rfl rfl rfl rfl rfl rfl

/-! ## Ports -/

/-- A change of PR's record that keeps its attachment, and whose Latch a 32-bit ring accounts for. -/
theorem State.Linked.with_pr {s : State} (h : s.Linked) {p : ReadPort} (hattach : p.attach = s.pr.attach)
    (hlatch : p.latch ≠ 0 → ∃ a, s.pr.attach = some a ∧ (s.ring a.ring).width = 32) :
    ({ s with pr := p } : State).Linked := by
  refine h.of_seats (fun _ => .refl _) (fun a => ?_) (fun _ => rfl) (fun _ => rfl)
    (fun ch => (h.requests ch).of_rings rfl rfl) ⟨?_, h.ports.2⟩
  · cases a with
    | pr => exact hattach
    | pw => rfl
    | dma ch => rfl
  · intro hl
    rw [hattach]
    exact hlatch hl

theorem State.Linked.with_pw {s : State} (h : s.Linked) {p : WritePort} (hattach : p.attach = s.pw.attach)
    (hstaging : p.staging ≠ 0 → ∃ a, s.pw.attach = some a ∧ (s.ring a.ring).width = 32) :
    ({ s with pw := p } : State).Linked := by
  refine h.of_seats (fun _ => .refl _) (fun a => ?_) (fun _ => rfl) (fun _ => rfl)
    (fun ch => (h.requests ch).of_rings rfl rfl) ⟨h.ports.1, ?_⟩
  · cases a with
    | pr => rfl
    | pw => exact hattach
    | dma ch => rfl
  · intro hl
    rw [hattach]
    exact hstaging hl

theorem State.Linked.postPortFault {s : State} (h : s.Linked) (source : Source) (detail : Byte) (was : Bool) :
    (s.postPortFault source detail was).Linked := by
  unfold State.postPortFault
  split
  · exact h
  · exact h.post _

theorem State.Linked.setPrStray {s : State} (h : s.Linked) : s.setPrStray.Linked := by
  unfold State.setPrStray
  split
  · exact (h.with_pr (p := { s.pr with stray := true }) rfl h.ports.1).postPortFault _ _ _
  · exact h

theorem State.Linked.setPwStray {s : State} (h : s.Linked) : s.setPwStray.Linked := by
  unfold State.setPwStray
  split
  · exact (h.with_pw (p := { s.pw with stray := true }) rfl h.ports.2).postPortFault _ _ _
  · exact h

theorem State.Linked.setUnderflow {s : State} (h : s.Linked) : s.setUnderflow.Linked :=
  (h.with_pr (p := { s.pr with underflow := true }) rfl h.ports.1).postPortFault _ _ _

theorem State.Linked.setOverflow {s : State} (h : s.Linked) : s.setOverflow.Linked :=
  (h.with_pw (p := { s.pw with overflow := true }) rfl h.ports.2).postPortFault _ _ _

/-- PR's seat is a consumer seat, and PW's a producer seat (R26). -/
theorem State.Linked.side_pr {s : State} (h : s.Linked) {a : Attachment} (ha : s.pr.attach = some a) :
    a.side = .consumer ∧ (s.ring a.ring).seat .consumer = .held (.agent .pr) := by
  obtain ⟨r, side⟩ := a
  obtain ⟨hseat, hfits⟩ := h.agents .pr r side
  cases side with
  | producer => exact absurd (hfits ha) Bool.false_ne_true
  | consumer => exact ⟨rfl, hseat.mpr ha⟩

theorem State.Linked.side_pw {s : State} (h : s.Linked) {a : Attachment} (ha : s.pw.attach = some a) :
    a.side = .producer ∧ (s.ring a.ring).seat .producer = .held (.agent .pw) := by
  obtain ⟨r, side⟩ := a
  obtain ⟨hseat, hfits⟩ := h.agents .pw r side
  cases side with
  | producer => exact ⟨rfl, hseat.mpr ha⟩
  | consumer => exact absurd (hfits ha) Bool.false_ne_true

/-- A claim by the holder of a seat that is no channel's. -/
theorem State.Linked.appendClaim {s : State} (h : s.Linked) {r : RingId} {x : Holder} (c : Cell) (who : Appender)
    (hseat : (s.ring r).seat .producer = .held x) (hx : ∀ ch, x ≠ .agent (.dma ch)) : (s.appendClaim r c who).1.Linked :=
  h.of_sameSeating (s.sameSeating_appendClaim r c who) fun ch =>
    (h.requests ch).appendClaim c who (h.not_seated hseat (hx ch))

theorem State.Linked.removeForHost {s : State} (h : s.Linked) {r : RingId} {x : Holder}
    (hseat : (s.ring r).seat .consumer = .held x) (hx : ∀ ch, x ≠ .agent (.dma ch)) : (s.removeForHost r).1.Linked :=
  h.of_sameSeating (s.sameSeating_removeForHost r) fun ch => (h.requests ch).removeForHost (h.not_seated hseat (hx ch))

theorem State.Seated.removeForLane {s : State} (h : s.Seated) {r : RingId} {x : Holder} (n : LaneId)
    (hseat : (s.ring r).seat .consumer = .held x) (hx : ∀ ch, x ≠ .agent (.dma ch)) : (s.removeForLane r n).1.Seated :=
  h.of_sameSeating (s.sameSeating_removeForLane r n) fun ch =>
    (h.requests ch).removeForLane n (h.not_seated hseat (hx ch))

theorem State.Linked.prRead {s : State} (h : s.Linked) : s.prRead.Linked := by
  unfold State.prRead
  split
  · exact h.setPrStray.drives 0
  · rename_i a ha
    obtain ⟨_, hseat⟩ := h.side_pr ha
    have hclaim := h.removeForHost hseat (fun ch => nofun)
    have hsame := s.sameSeating_removeForHost a.ring
    have hread : (((s.removeForHost a.ring).1.latchPr a.ring (s.removeForHost a.ring).2.1).drives
        (loHalf (s.removeForHost a.ring).2.1)).Linked := by
      refine State.Linked.drives ?_ _
      unfold State.latchPr
      split
      · rename_i hwidth
        exact hclaim.with_pr rfl fun _ => ⟨a, by rw [hsame.pr]; exact ha, hwidth⟩
      · exact hclaim
    dsimp only
    split
    · exact hread
    · exact hread.setUnderflow

theorem State.Linked.pwStage {s : State} (h : s.Linked) (v : Word) : (s.pwStage v).Linked := by
  unfold State.pwStage
  split
  · exact h.setPwStray
  · rename_i a ha
    split
    · rename_i hwidth
      exact h.with_pw rfl fun _ => ⟨a, ha, hwidth⟩
    · exact h

theorem State.Linked.pwPush {s : State} (h : s.Linked) (v : Word) : (s.pwPush v).Linked := by
  unfold State.pwPush
  split
  · exact h.setPwStray
  · rename_i a ha
    obtain ⟨_, hseat⟩ := h.side_pw ha
    have hclaim := h.appendClaim (formCell (s.ring a.ring).width s.pw.staging v) .host hseat (fun ch => nofun)
    have hemptied := hclaim.with_pw (p := { (s.appendClaim a.ring (formCell (s.ring a.ring).width s.pw.staging v)
      .host).1.pw with staging := 0 }) rfl fun hne => absurd rfl hne
    dsimp only
    split
    · exact hemptied
    · exact hemptied.setOverflow

theorem State.Linked.prFlags {s : State} (h : s.Linked) (v : Word) : ({ s with pr := s.pr.clearFlags v } : State).Linked :=
  h.with_pr rfl h.ports.1

theorem State.Linked.pwFlags {s : State} (h : s.Linked) (v : Word) : ({ s with pw := s.pw.clearFlags v } : State).Linked :=
  h.with_pw rfl h.ports.2

/-! ## Channels -/

/-- A change of a channel's record that keeps its attachment and its form. -/
theorem State.Linked.setChan {s : State} (h : s.Linked) {ch : ChanId} {c : Channel} (hrecord : c.record = (s.chan ch).record)
    (hok : c.Ok) (hgrant : c.grant ≤ (s.chan ch).grant) : (s.setChan ch c).Linked := by
  refine h.of_sameSeating (State.sameSeating_setChan hrecord) fun d => ?_
  by_cases hd : d = ch
  · subst hd
    rw [State.RequestOk, State.chan_setChan_self]
    refine ⟨hok, fun a ha => ?_⟩
    have hattach : c.attach = (s.chan d).attach := congrArg AttachRecord.current hrecord
    obtain ⟨hopen, hbacked⟩ := (h.requests d).2 a (hattach ▸ ha)
    exact ⟨hopen, hgrant.trans hbacked⟩
  · exact (h.requests d).of_rings (s.chan_setChan_of_ne ch d c hd) rfl

/-- A change of a channel's record that no clause speaks of. -/
theorem State.Linked.setChan_books {s : State} (h : s.Linked) {ch : ChanId} {c : Channel}
    (hc : c = { s.chan ch with latch := c.latch, staging := c.staging, phase := c.phase, stray := c.stray }) :
    (s.setChan ch c).Linked := by
  rw [hc]
  exact h.setChan rfl (h.requests ch).1 (Nat.le_refl _)

theorem State.Linked.setChanStray {s : State} (h : s.Linked) (ch : ChanId) : (s.setChanStray ch).Linked := by
  unfold State.setChanStray
  split
  · exact h.setChan_books rfl
  · exact h

/-- A channel without a grant goes to FAULT. -/
theorem Channel.Ok.faulted {c : Channel} (h : c.Ok) (hactive : c.state = .active) (hgrant : c.grant = 0) :
    ({ c with state := .fault } : Channel).Ok := by
  obtain ⟨hlow, hhigh, hquantum, hcount, hattach, _, _, hgap⟩ := h
  exact ⟨hlow, hhigh, hquantum, hcount, fun _ => hattach (by rw [hactive]; exact nofun),
    fun hg => absurd hgrant (Nat.ne_of_gt hg), fun _ hs => ChanState.noConfusion hs, hgap⟩

theorem State.Linked.strayAccess {s : State} (h : s.Linked) {ch : ChanId} (r : RingId) (write : Option Word)
    (hactive : (s.chan ch).state = .active) (hgrant : (s.chan ch).grant = 0) : (s.strayAccess ch r write).1.Linked := by
  have hok := (h.requests ch).1.faulted hactive hgrant
  unfold State.strayAccess
  cases write with
  | none =>
    refine State.Linked.post (h.setChan ?_ ?_ ?_) _
    exacts [rfl, hok, Nat.le_refl _]
  | some v =>
    refine State.Linked.post (h.setChan ?_ ?_ ?_) _
    exacts [rfl, hok, Nat.le_refl _]

theorem Channel.want_stepped_le (c : Channel) : c.stepped.want ≤ c.quantum := by
  rw [Channel.want_eq]
  cases hmode : c.stepped.mode with
  | free => exact Nat.le_refl _
  | count => exact Nat.min_le_left _ _

theorem Channel.want_stepped_le_tally {c : Channel} (hmode : c.mode = .count) : c.stepped.want ≤ c.stepped.tally.toNat := by
  have hmode : c.stepped.mode = .count := hmode
  simp only [Channel.want, hmode]
  exact Nat.min_le_right _ _

theorem Channel.tally_stepped_of_count {c : Channel} (hmode : c.mode = .count) : c.stepped.tally = c.tally - 1 := by
  simp only [Channel.stepped, hmode]

/-- A completed access leaves the record well formed (R135, R136, R141). -/
theorem Channel.Ok.afterAccess {c : Channel} (h : c.Ok) (hactive : c.state = .active) (hgrant : 0 < c.grant)
    (available : Nat) : (c.afterAccess available).Ok := by
  obtain ⟨hlow, hhigh, hquantum, hcount, hattach, _, htally, hgap⟩ := h
  have hattached : c.attach ≠ none := hattach (by rw [hactive]; exact nofun)
  by_cases hdone : c.mode = .count ∧ c.stepped.tally = 0
  · obtain ⟨hmode, hzero⟩ := hdone
    have hlast : c.grant - 1 = 0 := by
      obtain ⟨hle, hne⟩ := htally hmode hactive
      rw [Channel.tally_stepped_of_count hmode] at hzero
      bv_omega
    have hafter : c.afterAccess available =
        { c with tally := 0, state := .idle, grant := 0, gap := false } := by
      simp only [Channel.afterAccess, hmode, hzero, and_self, if_true, not_true_eq_false, false_and, if_false, hlast]
    rw [hafter]
    exact ⟨hlow, hhigh, Nat.zero_le _, hcount, fun hs => absurd rfl hs, fun hg => absurd hg (Nat.lt_irrefl 0),
      fun _ hs => ChanState.noConfusion hs, fun hg => Bool.noConfusion hg⟩
  · have hmore : c.mode = .count → c.grant - 1 ≤ c.stepped.tally.toNat ∧ c.stepped.tally ≠ 0 := fun hmode => by
      obtain ⟨hle, hne⟩ := htally hmode hactive
      refine ⟨?_, fun hzero => hdone ⟨hmode, hzero⟩⟩
      rw [Channel.tally_stepped_of_count hmode]
      bv_omega
    have hafter : c.afterAccess available = { c with
        tally := c.stepped.tally, state := .active,
        grant := if c.grant = 1 ∧ c.stepped.want ≤ available then c.stepped.want else c.grant - 1,
        gap := if c.grant = 1 then decide ((c.grant = 1 ∧ c.stepped.want ≤ available) ∧ 0 < c.stepped.want)
          else c.gap } := by
      simp only [Channel.afterAccess, hdone, if_false, not_false_eq_true, true_and]
    rw [hafter]
    refine ⟨hlow, hhigh, ?_, hcount, fun _ => hattached, fun _ => rfl, fun hmode _ => ⟨?_, (hmore hmode).2⟩, fun hg => ?_⟩
    · dsimp only
      split
      · exact c.want_stepped_le
      · omega
    · dsimp only
      split
      · exact Channel.want_stepped_le_tally hmode
      · exact (hmore hmode).1
    · dsimp only at hg ⊢
      by_cases hone : c.grant = 1
      · rw [if_pos hone, decide_eq_true_eq] at hg
        rw [if_pos hg.1]
        exact hg.2
      · rw [if_neg fun hboth => hone hboth.1]
        omega

/-- What the ring then has covers the grant that the access leaves. -/
theorem Channel.grant_afterAccess_le {c : Channel} {available : Nat} (h : c.grant ≤ available + 1) :
    (c.afterAccess available).grant ≤ available := by
  simp only [Channel.afterAccess]
  split
  · rename_i hwant
    exact hwant.2.2
  · omega

/-- A channel's access: its claim, and its own record and notices after it. -/
theorem State.Linked.of_access {s u : State} (h : s.Linked) {ch : ChanId} {r : RingId} {side : Side} {c : Channel}
    {notices : NoticeUnit} {available : Nat} (ha : (s.chan ch).attach = some ⟨r, side⟩) (hsame : s.SameSeating u)
    (hothers : ∀ d, d ≠ ch → u.RequestOk d) (hring : (u.ring r).available side = available)
    (hrecord : c.record = (s.chan ch).record) (hok : (c.afterAccess available).Ok) (hgrant : c.grant ≤ available + 1) :
    ({ u.setChan ch (c.afterAccess available) with notices := notices } : State).Linked := by
  have hset : u.SameSeating (u.setChan ch (c.afterAccess available)) :=
    State.sameSeating_setChan (hrecord.trans (hsame.record ch).symm)
  have hall : ∀ d, (u.setChan ch (c.afterAccess available)).RequestOk d := fun d => by
    by_cases hd : d = ch
    · subst hd
      rw [State.RequestOk, State.chan_setChan_self]
      refine ⟨hok, fun a hown => ?_⟩
      have hattach : (c.afterAccess available).attach = (s.chan d).attach := congrArg AttachRecord.current hrecord
      obtain rfl : ⟨r, side⟩ = a := Option.some.inj (ha.symm.trans (hattach.symm.trans hown))
      rw [State.ring_setChan, hring, (hsame.ring r).state]
      exact ⟨((h.requests d).2 _ ha).1, Channel.grant_afterAccess_le hgrant⟩
    · exact (hothers d hd).of_rings (u.chan_setChan_of_ne ch d _ hd) rfl
  exact (h.of_sameSeating (hsame.trans hset) hall).of_same rfl rfl rfl rfl rfl rfl

theorem State.Linked.other_seat {s : State} (h : s.Linked) {ch d : ChanId} {a : Attachment}
    (ha : (s.chan ch).attach = some a) (hd : d ≠ ch) : (s.chan d).attach ≠ some a := by
  refine h.not_seated ((h.agents (.dma ch) a.ring a.side).1.mpr ha) fun heq => hd ?_
  cases heq
  rfl

theorem State.Linked.chanRemove {s : State} (h : s.Linked) {ch : ChanId} {r : RingId}
    (ha : (s.chan ch).attach = some ⟨r, .consumer⟩) (hactive : (s.chan ch).state = .active)
    (hgrant : 0 < (s.chan ch).grant) : (s.chanRemove ch r).1.Linked := by
  obtain ⟨hok, hbacked⟩ := h.requests ch
  obtain ⟨hopen, hcells⟩ := hbacked _ ha
  have hcells : (s.chan ch).grant ≤ (s.ring r).level := hcells
  rw [State.chanRemove_eq ha hactive hgrant hopen (Nat.lt_of_lt_of_le hgrant hcells)]
  refine h.of_access ha (s.sameSeating_removeCell r) (fun d hd => (h.requests d).removeCell (h.other_seat ha hd)) ?_ rfl
    (Channel.Ok.afterAccess (c := { s.chan ch with latch := _ }) hok hactive hgrant _) ?_
  · rw [State.ring_removeCell_self]
    rfl
  · show (s.chan ch).grant ≤ _
    omega

theorem State.Linked.chanAppend {s : State} (h : s.Linked) {ch : ChanId} {r : RingId} (v : Word)
    (ha : (s.chan ch).attach = some ⟨r, .producer⟩) (hactive : (s.chan ch).state = .active)
    (hgrant : 0 < (s.chan ch).grant) : (s.chanAppend ch r v).Linked := by
  obtain ⟨hok, hbacked⟩ := h.requests ch
  obtain ⟨hopen, hroom⟩ := hbacked _ ha
  have hroom : (s.chan ch).grant ≤ (s.ring r).cap - (s.ring r).level := hroom
  rw [State.chanAppend_eq v ha hactive hgrant hopen (by omega)]
  refine h.of_access ha (s.sameSeating_storeCell r _) (fun d hd => (h.requests d).storeCell _ (h.other_seat ha hd)) ?_ rfl
    (Channel.Ok.afterAccess (c := { s.chan ch with staging := 0 }) hok hactive hgrant _) ?_
  · rw [State.ring_storeCell_self]
    rfl
  · show (s.chan ch).grant ≤ _
    omega

theorem State.Linked.lowAccess {s : State} (h : s.Linked) (ch : ChanId) (write : Option Word) :
    (s.lowAccess ch write).1.Linked := by
  cases ha : (s.chan ch).attach with
  | none =>
    simp only [State.lowAccess, ha]
    exact h.setChanStray ch
  | some a =>
    by_cases hactive : (s.chan ch).state = .active
    · by_cases hgrant : (s.chan ch).grant = 0
      · have hstray : s.lowAccess ch write = s.strayAccess ch a.ring write := by
          simp [State.lowAccess, ha, hactive, hgrant]
        rw [hstray]
        exact h.strayAccess a.ring write hactive hgrant
      · have hpos := Nat.pos_of_ne_zero hgrant
        obtain ⟨r, side⟩ := a
        cases side with
        | consumer =>
          cases write with
          | none => rw [State.lowAccess_read hactive hpos ha]; exact h.chanRemove ha hactive hpos
          | some v => rw [State.lowAccess_write_of_consumer hactive hpos v ha]; exact h
        | producer =>
          cases write with
          | none => rw [State.lowAccess_read_of_producer hactive hpos ha]; exact h
          | some v =>
            rw [State.lowAccess_write hactive hpos v ha]
            dsimp only
            exact h.chanAppend v ha hactive hpos
    · have hstray : s.lowAccess ch write = (s.setChanStray ch, 0) := by simp [State.lowAccess, ha, hactive]
      rw [hstray]
      exact h.setChanStray ch

theorem State.Linked.highAccess {s : State} (h : s.Linked) (ch : ChanId) (side : Side) (write : Option Word) :
    (s.highAccess ch side write).1.Linked := by
  unfold State.highAccess
  dsimp only
  split
  · exact h
  · exact h
  · exact h
  · split
    · exact h.setChan_books rfl
    · exact h.setChanStray ch

theorem State.Linked.addressedLow {s : State} (h : s.Linked) (ch : ChanId) (write : Option Word) :
    (s.addressedLow ch write).1.Linked := by
  unfold State.addressedLow
  split
  · exact h
  · exact h.lowAccess ch write

theorem State.Linked.addressedHighWrite {s : State} (h : s.Linked) (ch : ChanId) (v : Word) :
    (s.addressedHighWrite ch v).Linked := by
  unfold State.addressedHighWrite
  split
  · exact h
  · split
    · exact h.setChanStray ch
    · split
      · exact h.highAccess ch _ _
      · exact h

theorem State.Linked.ackAccess {s : State} (h : s.Linked) (ch : ChanId) (write : Option Word) :
    (s.ackAccess ch write).1.Linked := by
  unfold State.ackAccess
  dsimp only
  split
  · exact h
  · split
    · exact h.lowAccess ch write
    · have hphase : (s.setChan ch { s.chan ch with phase := (s.chan ch).phase.other }).Linked := h.setChan_books rfl
      split
      · split
        · exact hphase.highAccess ch _ write
        · exact hphase.lowAccess ch write
      · exact h.lowAccess ch write

theorem State.Linked.drivesIfRead {s : State} (h : s.Linked) (write : Option Word) (w : Word) :
    (s.drivesIfRead write w).Linked := by
  cases write with
  | none => exact h.drives w
  | some _ => exact h

theorem State.Linked.ackStrobe {s : State} (h : s.Linked) (dak0 dak1 : Bool) (write : Option Word) :
    (s.ackStrobe dak0 dak1 write).Linked := by
  have hcounted : ({ s with freeCount := s.freeCount + 1 } : State).Linked := h.of_same rfl rfl rfl rfl rfl rfl
  unfold State.ackStrobe
  split
  · exact h
  · exact (h.ackAccess 0 write).drivesIfRead write _
  · exact (h.ackAccess 1 write).drivesIfRead write _
  · exact ((hcounted.ackAccess _ write).ackAccess _ write).drivesIfRead write _

end Sys2Proof.Machine
end

section
/-! PROOFS. Exchanges, frame starts, slot starts, slot ends, lock, loss and entry to OFF keep seats, reservations, live
banks and targets in agreement (R34 to R41, R85 to R90, R95, R102). -/

namespace Sys2Proof.Machine

/-! ## The clauses of one lane -/

/-- What the seats, the slot map and the record of lane `n` have to agree on. -/
structure State.LaneSeated (s : State) (n : LaneId) : Prop where
  held : ∀ r side, (s.ring r).seat side = .held (.lane n) ↔
    bankNames (s.smap n).liveBank (s.lane n).cfg.slots side r = true
  on : (s.smap n).swapPending = true → (s.lane n).state ≠ .off
  reserved : ∀ r side, (s.ring r).seat side = .reserved n →
    (s.smap n).swapPending = true ∧ bankNames (s.smap n).editBank (s.lane n).cfg.slots side r = true
  named : (s.smap n).swapPending = true → ∀ r side,
    bankNames (s.smap n).editBank (s.lane n).cfg.slots side r = true →
      (s.ring r).seat side = .reserved n ∨ (s.ring r).seat side = .held (.lane n)
  fits : ∀ r side, (s.ring r).seat side = .held (.lane n) ∨ (s.ring r).seat side = .reserved n →
    (s.ring r).state = .opened ∧ (s.ring r).width = (s.lane n).cfg.width

theorem State.Seated.lane {s : State} (h : s.Seated) (n : LaneId) : s.LaneSeated n := by
  obtain ⟨hon, hreserved, hnamed⟩ := h.reservations n
  exact ⟨h.laneSeats n, hon, hreserved, hnamed, h.laneRings n⟩

/-- A seat that an exchange or a cancellation of lane `n` can change: FREE, or RESERVED for the lane, or HELD by it. -/
def Seat.FreeFor (seat : Seat) (n : LaneId) : Prop := seat = .free ∨ seat = .reserved n ∨ seat = .held (.lane n)

/-- From `s` to `t` only lane `n`, its slot map and seats that are the lane's or FREE change. -/
structure State.MovesSeatsOf (s t : State) (n : LaneId) : Prop where
  ring : ∀ r, (s.ring r).SameButSeats (t.ring r)
  seat : ∀ r side, (t.ring r).seat side = (s.ring r).seat side ∨
    ((s.ring r).seat side).FreeFor n ∧ ((t.ring r).seat side).FreeFor n
  lanes : s.SameLanesBut t n
  maps : s.SameMapsBut t n
  chans : t.chans = s.chans
  pr : t.pr = s.pr
  pw : t.pw = s.pw

theorem State.MovesSeatsOf.seat_iff {s t : State} {n : LaneId} (h : s.MovesSeatsOf t n) {x : Seat} (hx : ¬x.FreeFor n)
    (r : RingId) (side : Side) : (t.ring r).seat side = x ↔ (s.ring r).seat side = x := by
  rcases h.seat r side with hsame | ⟨hs, ht⟩
  · rw [hsame]
  · refine ⟨fun heq => absurd (heq ▸ ht) hx, fun heq => absurd (heq ▸ hs) hx⟩

theorem Seat.not_freeFor_agent (n : LaneId) (a : Agent) : ¬(Seat.held (.agent a)).FreeFor n := by
  rintro (h | h | h) <;> cases h

theorem Seat.not_freeFor_lane {n m : LaneId} (h : m ≠ n) : ¬(Seat.held (.lane m)).FreeFor n := by
  rintro (heq | heq | heq)
  · cases heq
  · cases heq
  · exact h (Holder.lane.inj (Seat.held.inj heq))

theorem Seat.not_freeFor_reserved {n m : LaneId} (h : m ≠ n) : ¬(Seat.reserved m).FreeFor n := by
  rintro (heq | heq | heq)
  · cases heq
  · exact h (Seat.reserved.inj heq)
  · cases heq

theorem State.MovesSeatsOf.state {s t : State} {n : LaneId} (h : s.MovesSeatsOf t n) (r : RingId) :
    (t.ring r).state = (s.ring r).state := by
  rw [h.ring r]

theorem State.MovesSeatsOf.width {s t : State} {n : LaneId} (h : s.MovesSeatsOf t n) (r : RingId) :
    (t.ring r).width = (s.ring r).width := by
  rw [h.ring r]

theorem State.MovesSeatsOf.available {s t : State} {n : LaneId} (h : s.MovesSeatsOf t n) (r : RingId) (side : Side) :
    (t.ring r).available side = (s.ring r).available side := by
  rw [h.ring r]
  cases side <;> rfl

theorem State.MovesSeatsOf.chan {s t : State} {n : LaneId} (h : s.MovesSeatsOf t n) (ch : ChanId) :
    t.chan ch = s.chan ch := congrArg (·[ch.val]) h.chans

theorem State.MovesSeatsOf.attachOf {s t : State} {n : LaneId} (h : s.MovesSeatsOf t n) (a : Agent) :
    t.attachOf a = s.attachOf a := by
  cases a with
  | pr => exact congrArg ReadPort.attach h.pr
  | pw => exact congrArg WritePort.attach h.pw
  | dma ch => exact congrArg Channel.attach (h.chan ch)

/-- The other lanes and the agents do not notice a move of lane `n`'s seats. -/
theorem State.Seated.of_lane {s t : State} {n : LaneId} (h : s.Seated) (hmoves : s.MovesSeatsOf t n)
    (hn : t.LaneSeated n) : t.Seated where
  agents a r side := by
    rw [hmoves.seat_iff (Seat.not_freeFor_agent n a), hmoves.attachOf]
    exact h.agents a r side
  laneSeats m r side := by
    by_cases hm : m = n
    · subst hm
      exact hn.held r side
    · rw [hmoves.seat_iff (Seat.not_freeFor_lane hm), hmoves.lanes m hm, hmoves.maps m hm]
      exact h.laneSeats m r side
  reservations m := by
    by_cases hm : m = n
    · subst hm
      exact ⟨hn.on, hn.reserved, hn.named⟩
    · obtain ⟨hon, hreserved, hnamed⟩ := h.reservations m
      rw [hmoves.lanes m hm, hmoves.maps m hm]
      refine ⟨hon, fun r side => ?_, fun hpending r side => ?_⟩
      · rw [hmoves.seat_iff (Seat.not_freeFor_reserved hm)]
        exact hreserved r side
      · rw [hmoves.seat_iff (Seat.not_freeFor_reserved hm), hmoves.seat_iff (Seat.not_freeFor_lane hm)]
        exact hnamed hpending r side
  laneRings m r side := by
    by_cases hm : m = n
    · subst hm
      exact hn.fits r side
    · rw [hmoves.seat_iff (Seat.not_freeFor_reserved hm), hmoves.seat_iff (Seat.not_freeFor_lane hm), hmoves.state,
        hmoves.width, hmoves.lanes m hm]
      exact h.laneRings m r side
  requests ch := (h.requests ch).of_available (hmoves.chan ch) fun a _ =>
    ⟨hmoves.state a.ring, Nat.le_of_eq (hmoves.available a.ring a.side).symm⟩
  ports := by
    rw [State.PortsOk, hmoves.pr, hmoves.pw]
    refine ⟨fun hlatch => ?_, fun hstaging => ?_⟩
    · obtain ⟨a, ha, hwidth⟩ := h.ports.1 hlatch
      exact ⟨a, ha, (hmoves.width a.ring).trans hwidth⟩
    · obtain ⟨a, ha, hwidth⟩ := h.ports.2 hstaging
      exact ⟨a, ha, (hmoves.width a.ring).trans hwidth⟩

/-- Every lane but `n` receives into a ring that it holds. -/
def State.TargetsBut (s : State) (n : LaneId) : Prop :=
  ∀ m, m ≠ n → ∀ r, (s.lane m).rxTarget = .ring r → (s.ring r).seat .producer = .held (.lane m)

theorem State.Linked.targetsBut {s : State} (h : s.Linked) (n : LaneId) : s.TargetsBut n := fun m _ r => h.targets m r

theorem State.TargetsBut.of_lane {s t : State} {n : LaneId} (h : s.TargetsBut n) (hmoves : s.MovesSeatsOf t n) :
    t.TargetsBut n := fun m hm r => by
  rw [hmoves.lanes m hm, hmoves.seat_iff (Seat.not_freeFor_lane hm)]
  exact h m hm r

theorem State.TargetsBut.of_sameSeating {s t : State} {n : LaneId} (h : s.TargetsBut n) (hs : s.SameSeating t) :
    t.TargetsBut n := fun m hm r => by
  have hlane : t.lane m = s.lane m := congrArg (·[m.val]) hs.lanes
  rw [hlane, (hs.ring r).seat .producer]
  exact h m hm r

theorem State.Seated.linked {s : State} {n : LaneId} (h : s.Seated) (hothers : s.TargetsBut n)
    (hown : ∀ r, (s.lane n).rxTarget = .ring r → (s.ring r).seat .producer = .held (.lane n)) : s.Linked where
  toSeated := h
  targets m r htarget := by
    by_cases hm : m = n
    · subst hm
      exact hown r htarget
    · exact hothers m hm r htarget

theorem State.Linked.of_lane {s t : State} {n : LaneId} (h : s.Linked) (hmoves : s.MovesSeatsOf t n)
    (hn : t.LaneSeated n)
    (hown : ∀ r, (t.lane n).rxTarget = .ring r → (t.ring r).seat .producer = .held (.lane n)) : t.Linked :=
  (h.toSeated.of_lane hmoves hn).linked ((h.targetsBut n).of_lane hmoves) hown

/-! ## The lane's record -/

theorem State.movesSeatsOf_setLane (s : State) (n : LaneId) (l : Lane) : s.MovesSeatsOf (s.setLane n l) n where
  ring _ := rfl
  seat _ _ := .inl rfl
  lanes := s.sameLanesBut_setLane n l
  maps _ _ := rfl
  chans := rfl
  pr := rfl
  pw := rfl

/-- A change of the lane's record that keeps SLOTS and WIDTH and does not take the lane to OFF. -/
theorem State.LaneSeated.setLane_layout {s : State} {n : LaneId} {l : Lane} (h : s.LaneSeated n)
    (hslots : l.cfg.slots = (s.lane n).cfg.slots) (hwidth : l.cfg.width = (s.lane n).cfg.width)
    (hon : l.state = .off → (s.lane n).state = .off) : (s.setLane n l).LaneSeated n := by
  have hself := s.lane_setLane_self n l
  refine ⟨?_, ?_, ?_, ?_, ?_⟩ <;> rw [hself]
  · rw [hslots]
    exact h.held
  · exact fun hpending hoff => h.on hpending (hon hoff)
  · rw [hslots]
    exact h.reserved
  · rw [hslots]
    exact h.named
  · rw [hwidth]
    exact h.fits

/-- A change of the lane's record that keeps its configuration and does not take it to OFF. -/
theorem State.LaneSeated.setLane {s : State} {n : LaneId} {l : Lane} (h : s.LaneSeated n) (hcfg : l.cfg = (s.lane n).cfg)
    (hon : l.state = .off → (s.lane n).state = .off) : (s.setLane n l).LaneSeated n :=
  h.setLane_layout (congrArg LaneConfig.slots hcfg) (congrArg LaneConfig.width hcfg) hon

theorem State.Seated.setLane {s : State} {n : LaneId} {l : Lane} (h : s.Seated) (hcfg : l.cfg = (s.lane n).cfg)
    (hon : l.state = .off → (s.lane n).state = .off) : (s.setLane n l).Seated :=
  h.of_lane (s.movesSeatsOf_setLane n l) ((h.lane n).setLane hcfg hon)

theorem State.Linked.setLane {s : State} {n : LaneId} {l : Lane} (h : s.Linked) (hcfg : l.cfg = (s.lane n).cfg)
    (hon : l.state = .off → (s.lane n).state = .off) (htarget : ∀ r, l.rxTarget = .ring r → (s.lane n).rxTarget = .ring r) :
    (s.setLane n l).Linked :=
  h.of_lane (s.movesSeatsOf_setLane n l) ((h.lane n).setLane hcfg hon) fun r hr => by
    rw [State.lane_setLane_self] at hr
    exact h.targets n r (htarget r hr)

/-! ## Exchanges (R86) -/

theorem Seat.freeFor_take_release {seat : Seat} {n : LaneId} (named : Bool) :
    (seat.takeBy n).releaseBy n named = seat ∨ seat.FreeFor n ∧ ((seat.takeBy n).releaseBy n named).FreeFor n := by
  rw [Seat.take_release_eq]
  by_cases hown : seat = .reserved n ∨ seat = .held (.lane n)
  · refine .inr ⟨.inr hown, ?_⟩
    rw [if_pos hown]
    split
    · exact .inr (.inr rfl)
    · exact .inl rfl
  · exact .inl (if_neg hown)

theorem State.movesSeatsOf_exchange (s : State) (n : LaneId) (frame : Option Word) :
    s.MovesSeatsOf (s.exchange n frame) n where
  ring := s.sameButSeats_exchange n frame
  seat r side := by
    rw [State.seat_exchange]
    exact Seat.freeFor_take_release _
  lanes m _ := by
    rw [State.exchange_frame]
    rfl
  maps m hm := s.smap_exchange_of_ne frame hm
  chans := by rw [State.exchange_frame]
  pr := by rw [State.exchange_frame]
  pw := by rw [State.exchange_frame]

/-- After an exchange the lane holds what the new live bank names, if every seat named there was the lane's. -/
theorem State.laneSeated_exchange {s : State} {n : LaneId} (frame : Option Word)
    (hnamed : ∀ r side, bankNames (s.smap n).editBank (s.lane n).cfg.slots side r = true →
      (s.ring r).seat side = .reserved n ∨ (s.ring r).seat side = .held (.lane n))
    (hfits : ∀ r side, (s.ring r).seat side = .held (.lane n) ∨ (s.ring r).seat side = .reserved n →
      (s.ring r).state = .opened ∧ (s.ring r).width = (s.lane n).cfg.width) : (s.exchange n frame).LaneSeated n := by
  have hlane : (s.exchange n frame).lane n = s.lane n := by
    rw [State.exchange_frame]
    rfl
  have hmap := s.smap_exchange_self n frame
  have hlive : ((s.exchange n frame).smap n).liveBank = (s.smap n).editBank := by
    rw [hmap]
    exact (s.smap n).liveBank_swapLive
  have hidle : ((s.exchange n frame).smap n).swapPending = false := by rw [hmap]
  have hseat : ∀ r side, ((s.exchange n frame).ring r).seat side =
      if (s.ring r).seat side = .reserved n ∨ (s.ring r).seat side = .held (.lane n) then
        if bankNames (s.smap n).editBank (s.lane n).cfg.slots side r = true then .held (.lane n) else .free
      else (s.ring r).seat side := fun r side => by
    rw [State.seat_exchange, Seat.take_release_eq]
  have hheld : ∀ r side, ((s.exchange n frame).ring r).seat side = .held (.lane n) ↔
      bankNames (s.smap n).editBank (s.lane n).cfg.slots side r = true := fun r side => by
    rw [hseat]
    by_cases hown : (s.ring r).seat side = .reserved n ∨ (s.ring r).seat side = .held (.lane n)
    · rw [if_pos hown]
      split
      · rename_i hname
        exact ⟨fun _ => hname, fun _ => rfl⟩
      · rename_i hname
        exact ⟨fun h => Seat.noConfusion h, fun h => absurd h hname⟩
    · rw [if_neg hown]
      exact ⟨fun h => absurd (.inr h) hown, fun h => absurd (hnamed r side h) hown⟩
  have hnone : ∀ r side, ((s.exchange n frame).ring r).seat side ≠ .reserved n := fun r side => by
    rw [hseat]
    split
    · split <;> exact nofun
    · rename_i hown
      exact fun h => hown (.inl h)
  refine ⟨fun r side => ?_, fun h => ?_, fun r side h => absurd h (hnone r side), fun h => ?_, fun r side h => ?_⟩
  · rw [hlane, hlive]
    exact hheld r side
  · rw [hidle] at h
    exact Bool.noConfusion h
  · rw [hidle] at h
    exact Bool.noConfusion h
  · have hheldAfter := h.resolve_right (hnone r side)
    rw [(s.movesSeatsOf_exchange n frame).state, (s.movesSeatsOf_exchange n frame).width, hlane]
    exact hfits r side (hnamed r side ((hheld r side).mp hheldAfter)).symm

theorem State.Seated.exchange {s : State} {n : LaneId} (h : s.Seated) (hpending : (s.smap n).swapPending = true)
    (frame : Option Word) : (s.exchange n frame).Seated :=
  h.of_lane (s.movesSeatsOf_exchange n frame)
    (State.laneSeated_exchange frame ((h.lane n).named hpending) (h.lane n).fits)

/-! ## Slot starts and frame starts (R85, R95) -/

/-- An entry of the counted range speaks for its bank. -/
theorem bankNames_entry {b : Bank} {slots i : Nat} {side : Side} {r : RingId} (hi : i < slots)
    (h : (Bank.entry b i).names side = some r) : bankNames b slots side r = true := by
  by_cases hlen : i < 32
  · refine (bankNames_iff b slots side r).mpr ⟨⟨i, hlen⟩, hi, ?_⟩
    rw [← Bank.entry_eq b ⟨i, hlen⟩]
    exact h
  · have hnone : Bank.entry b i = .reset := by
      rw [Bank.entry, List.getD_eq_default]
      rw [Vector.length_toList]
      omega
    rw [hnone] at h
    cases side <;> cases h

/-- The ring of a live entry of the counted range is the lane's. -/
theorem State.Seated.held_entry {s : State} {n : LaneId} {i : Nat} {side : Side} {r : RingId} (h : s.Seated)
    (hi : i < (s.lane n).cfg.slots) (hentry : (Bank.entry (s.smap n).liveBank i).names side = some r) :
    (s.ring r).seat side = .held (.lane n) := (h.laneSeats n r side).mpr (bankNames_entry hi hentry)

theorem SlotEntry.names_consumer {e : SlotEntry} (h : e.txKind = .ring) : e.names .consumer = some e.txRing := if_pos h

theorem SlotEntry.names_producer {e : SlotEntry} {r : RingId} (h : e.rxTarget = .ring r) : e.names .producer = some r := by
  rw [SlotEntry.rxTarget_eq] at h
  split at h
  · rename_i hkind
    cases h
    exact if_pos hkind
  · cases h

theorem State.Seated.post {s : State} (h : s.Seated) (x : Notice) : (s.post x).Seated :=
  h.of_sameSeating (s.sameSeating_post x) fun ch => (h.requests ch).post x

theorem State.Seated.postMark {s : State} (h : s.Seated) (n : LaneId) (i : Nat) (e : SlotEntry) :
    (s.postMark n i e).Seated := by
  unfold State.postMark
  split
  · exact h.post _
  · exact h

/-- The transmit half of an entry whose ring the lane holds. -/
theorem State.Seated.transmitHalf {s : State} {n : LaneId} {e : SlotEntry} (h : s.Seated)
    (hseat : e.txKind = .ring → (s.ring e.txRing).seat .consumer = .held (.lane n)) : (s.transmitHalf n e).1.Seated := by
  cases htx : e.txKind with
  | quiet => rw [State.transmitHalf_of_quiet htx]; exact h
  | const => rw [State.transmitHalf_of_const htx]; exact h
  | ring =>
    rw [State.transmitHalf_of_ring htx]
    exact h.removeForLane n (hseat htx) fun _ => nofun

/-- A slot start gives the lane a target that the live bank names. -/
theorem State.Seated.slotStart {s : State} {n : LaneId} {i : Nat} (h : s.Seated) (hothers : s.TargetsBut n)
    (hi : i < (s.lane n).cfg.slots) : (s.slotStart n i).Linked := by
  have hmarked := s.sameSeating_postMark n i (Bank.entry (s.smap n).liveBank i)
  have hsent := hmarked.trans (State.sameSeating_transmitHalf _ n (Bank.entry (s.smap n).liveBank i))
  have hclaimed : ((s.postMark n i (Bank.entry (s.smap n).liveBank i)).transmitHalf n
      (Bank.entry (s.smap n).liveBank i)).1.Seated := (h.postMark n i _).transmitHalf fun htx => by
    rw [(hmarked.ring _).seat]
    exact h.held_entry hi (SlotEntry.names_consumer htx)
  simp only [State.slotStart]
  generalize ((s.postMark n i (Bank.entry (s.smap n).liveBank i)).transmitHalf n
    (Bank.entry (s.smap n).liveBank i)) = p at hsent hclaimed
  refine (hclaimed.setLane (l := (p.1.lane n).loadSlot p.2 _) rfl id).linked
    ((hothers.of_sameSeating hsent).of_lane (p.1.movesSeatsOf_setLane n _)) fun r htarget => ?_
  rw [State.lane_setLane_self] at htarget
  rw [State.ring_setLane, (hsent.ring r).seat]
  exact h.held_entry hi (SlotEntry.names_producer htarget)

theorem State.sameSeating_postLock (s : State) (n : LaneId) (k : Option LockKind) : s.SameSeating (s.postLock n k) := by
  cases k with
  | none => exact .refl s
  | some k => exact s.sameSeating_post _

theorem State.Seated.postLock {s : State} (h : s.Seated) (n : LaneId) (k : Option LockKind) : (s.postLock n k).Seated := by
  cases k with
  | none => exact h
  | some k => exact h.post _

theorem State.Linked.frameStart {s : State} {n : LaneId} (h : s.Linked) (hslots : 0 < (s.lane n).cfg.slots) :
    (s.frameStart n).Linked := by
  have hopen : (s.setLane n (s.lane n).openFrame).Seated := h.toSeated.setLane rfl id
  have hlocked := hopen.postLock n (s.lane n).lockNotice
  have hothers := ((h.targetsBut n).of_lane (s.movesSeatsOf_setLane n (s.lane n).openFrame)).of_sameSeating
    (State.sameSeating_postLock _ n (s.lane n).lockNotice)
  have hcount : 0 < ((s.frameOpened n).lane n).cfg.slots := by
    rw [State.lane_frameOpened_self]
    exact hslots
  rw [State.frameStart_eq]
  cases hpending : (s.smap n).swapPending with
  | false =>
    rw [State.frameOpened_of_idle hpending] at hcount ⊢
    exact hlocked.slotStart hothers hcount
  | true =>
    rw [State.frameOpened_of_pending hpending] at hcount ⊢
    refine (hlocked.exchange ?_ _).slotStart (hothers.of_lane (State.movesSeatsOf_exchange _ n _)) hcount
    rw [State.smap_postLock]
    exact hpending

theorem State.Linked.frameStartSampled {s : State} {n : LaneId} (h : s.Linked) (hslots : 0 < (s.lane n).cfg.slots) :
    (s.frameStartSampled n).Linked := by
  have hstart := h.frameStart hslots
  rw [State.frameStartSampled]
  generalize s.frameStart n = u at hstart
  refine hstart.setLane ?_ ?_ ?_ <;> rw [(u.lane n).atSampledStart_frame]
  · exact id
  · exact fun _ => id

/-! ## Lock, loss and entry to OFF (R53, R60, R65, R90) -/

theorem State.Linked.lock {s : State} {n : LaneId} (h : s.Linked) (hslots : 0 < (s.lane n).cfg.slots) (k : LockKind) :
    (s.lock n k).Linked := by
  have hlocked : (s.setLane n ((s.lane n).toLocked k)).Linked :=
    h.setLane rfl (fun hoff => LaneState.noConfusion hoff) fun _ => id
  cases hearly : (s.lane n).cfg.syncEarly with
  | true =>
    rw [State.lock_of_early hearly]
    exact hlocked
  | false =>
    rw [State.lock_of_late hearly]
    refine hlocked.frameStartSampled ?_
    rw [State.lane_setLane_self]
    exact hslots

theorem State.Linked.enterHunt {s : State} {n : LaneId} (h : s.Linked) (hslots : 0 < (s.lane n).cfg.slots)
    (cause : LossCause) : (s.enterHunt n cause).Linked := by
  have hlost := (h.setLane (n := n) (l := (s.lane n).toHunt cause) rfl (fun hoff => LaneState.noConfusion hoff)
    fun _ hr => RxTarget.noConfusion hr).post
      ⟨.laneLost, .lane n, some (s.lane n).frameCount, BitVec.ofNat 8 cause.code⟩
  by_cases hrelock : ((s.lane n).toHunt cause).goodSyncs = (s.lane n).cfg.relock
  · rw [State.enterHunt_of_relock hrelock]
    refine hlost.lock ?_ _
    rw [State.lane_post, State.lane_setLane_self]
    exact hslots
  · rw [State.enterHunt_of_no_relock hrelock]
    exact hlost

theorem State.movesSeatsOf_enterOff (s : State) (n : LaneId) : s.MovesSeatsOf (s.enterOff n) n where
  ring := s.sameButSeats_enterOff n
  seat r side := by
    rw [State.seat_enterOff]
    split
    · rename_i hreserved
      exact .inr ⟨.inr (.inl hreserved.2), .inl rfl⟩
    · exact .inl rfl
  lanes m hm := s.lane_enterOff_of_ne hm
  maps m hm := s.smap_enterOff_of_ne hm
  chans := by rw [State.enterOff_frame]
  pr := by rw [State.enterOff_frame]
  pw := by rw [State.enterOff_frame]

/-- After the end of a pending swap no seat is RESERVED for the lane, and what it held it holds. -/
theorem State.LaneSeated.cancelled {s t : State} {n : LaneId} (h : s.LaneSeated n) (hmoves : s.MovesSeatsOf t n)
    (hseat : ∀ r side, (t.ring r).seat side =
      if (s.smap n).swapPending = true ∧ (s.ring r).seat side = .reserved n then .free else (s.ring r).seat side)
    (hmap : t.smap n = { s.smap n with swapPending := false }) (hcfg : (t.lane n).cfg = (s.lane n).cfg) :
    t.LaneSeated n := by
  have hheld : ∀ r side, (t.ring r).seat side = .held (.lane n) ↔ (s.ring r).seat side = .held (.lane n) := fun r side => by
    rw [hseat]
    split
    · rename_i hreserved
      rw [hreserved.2]
      exact ⟨nofun, nofun⟩
    · exact Iff.rfl
  have hnone : ∀ r side, (t.ring r).seat side ≠ .reserved n := fun r side heq => by
    rw [hseat] at heq
    split at heq
    · cases heq
    · rename_i hnot
      exact hnot ⟨(h.reserved r side heq).1, heq⟩
  have hlive : (t.smap n).liveBank = (s.smap n).liveBank := by rw [hmap]; rfl
  have hidle : (t.smap n).swapPending = false := by rw [hmap]
  refine ⟨fun r side => ?_, fun hp => ?_, fun r side heq => absurd heq (hnone r side), fun hp => ?_, fun r side heq => ?_⟩
  · rw [hheld, hlive, hcfg]
    exact h.held r side
  · rw [hidle] at hp
    exact Bool.noConfusion hp
  · rw [hidle] at hp
    exact Bool.noConfusion hp
  · rw [hmoves.state, hmoves.width, hcfg]
    exact h.fits r side (.inl ((hheld r side).mp (heq.resolve_right (hnone r side))))

theorem State.Linked.enterOff {s : State} (h : s.Linked) (n : LaneId) : (s.enterOff n).Linked := by
  refine h.of_lane (s.movesSeatsOf_enterOff n) ((h.lane n).cancelled (s.movesSeatsOf_enterOff n) (s.seat_enterOff n)
    (s.smap_enterOff_self n) ?_) fun r hr => ?_
  · rw [State.lane_enterOff_self]
    rfl
  · rw [State.lane_enterOff_self] at hr
    exact RxTarget.noConfusion hr

theorem State.Linked.completeStop {s : State} (h : s.Linked) (n : LaneId) : (s.completeStop n).Linked :=
  (h.post _).enterOff n

theorem State.Linked.earlyStop {s : State} (h : s.Linked) (n : LaneId) (cause : LossCause) :
    (s.earlyStop n cause).Linked :=
  ((h.setLane (l := { s.lane n with lastCause := cause }) rfl id fun _ => id).post _).enterOff n

end Sys2Proof.Machine
end

section
/-! PROOFS. The events of the lanes keep seats, reservations, live banks and targets in agreement (R48 to R67, R95,
R102). -/

namespace Sys2Proof.Machine

/-! ## Edges -/

/-- The two records of a lane have its parameters, its state and its receive target in common. -/
structure Lane.SamePlace (l l' : Lane) : Prop where
  cfg : l'.cfg = l.cfg
  state : l'.state = l.state
  target : l'.rxTarget = l.rxTarget

theorem Lane.SamePlace.refl (l : Lane) : l.SamePlace l := ⟨rfl, rfl, rfl⟩

theorem Lane.samePlace_drive (l : Lane) : l.SamePlace l.drive := by
  rw [l.drive_frame]
  exact ⟨rfl, rfl, rfl⟩

theorem Lane.samePlace_driveRunning (l : Lane) : l.SamePlace l.driveRunning := by
  unfold Lane.driveRunning
  split
  · exact l.samePlace_drive
  · exact .refl l
  · split
    · exact .refl l
    · split
      · obtain ⟨hcfg, hstate, htarget⟩ := ({ l with position := l.position + 1 } : Lane).samePlace_drive
        exact ⟨hcfg, hstate, htarget⟩
      · obtain ⟨hcfg, hstate, htarget⟩ := ({ l with position := 0, between := true } : Lane).samePlace_drive
        exact ⟨hcfg, hstate, htarget⟩

theorem Lane.samePlace_driveEdge (l : Lane) : l.SamePlace l.driveEdge := by
  have hwatched : l.SamePlace (if l.owes then l else { l with watchRunning := true }) := by
    split
    · exact .refl l
    · exact ⟨rfl, rfl, rfl⟩
  unfold Lane.driveEdge
  split
  · exact .refl l
  · exact hwatched
  · exact hwatched
  · exact l.samePlace_driveRunning
  · exact l.samePlace_driveRunning

theorem Lane.samePlace_sampleRx (l : Lane) (rx : Bool) : l.SamePlace (l.sampleRx rx) := by
  unfold Lane.sampleRx
  dsimp only
  split
  · exact ⟨rfl, rfl, rfl⟩
  · exact ⟨rfl, rfl, rfl⟩

theorem Lane.samePlace_sampleRunning (l : Lane) (rx sync : Bool) : l.SamePlace (l.sampleRunning rx sync) := by
  obtain ⟨hcfg, hstate, htarget⟩ := l.samePlace_sampleRx rx
  unfold Lane.sampleRunning
  split
  · split
    · exact ⟨hcfg, hstate, htarget⟩
    · exact ⟨hcfg, hstate, htarget⟩
  · exact .refl l
  · exact .refl l

theorem Lane.samePlace_samplingEdge (l : Lane) (rx sync : Bool) : l.SamePlace (l.samplingEdge rx sync) := by
  have hhunting : l.SamePlace (l.sampleHunting rx sync) := by
    unfold Lane.sampleHunting
    split
    · exact .refl l
    · exact ⟨rfl, rfl, rfl⟩
  unfold Lane.samplingEdge
  split
  · exact .refl l
  · exact hhunting
  · exact hhunting
  · exact l.samePlace_sampleRunning rx sync
  · exact l.samePlace_sampleRunning rx sync

theorem State.Linked.setLane_samePlace {s : State} {n : LaneId} {l : Lane} (h : s.Linked)
    (hl : (s.lane n).SamePlace l) : (s.setLane n l).Linked :=
  h.setLane hl.cfg (fun hoff => hl.state ▸ hoff) fun _ hr => hl.target ▸ hr

/-! ## Sync (R58 to R67) -/

theorem State.slots_setLane {s : State} {n : LaneId} {l : Lane} (h : 0 < (s.lane n).cfg.slots)
    (hcfg : l.cfg = (s.lane n).cfg) : 0 < ((s.setLane n l).lane n).cfg.slots := by
  rw [State.lane_setLane_self, hcfg]
  exact h

theorem State.Linked.count {s : State} {n : LaneId} (h : s.Linked) (hslots : 0 < (s.lane n).cfg.slots) (k : LockKind) :
    (if (s.lane n).countSync.goodSyncs = (s.lane n).cfg.relock then (s.setLane n (s.lane n).countSync).lock n k
      else s.setLane n (s.lane n).countSync).Linked := by
  have hcounted : (s.setLane n (s.lane n).countSync).Linked := h.setLane_samePlace ⟨rfl, rfl, rfl⟩
  split
  · exact hcounted.lock (State.slots_setLane hslots rfl) k
  · exact hcounted

theorem State.Linked.syncArrival {s : State} {n : LaneId} (h : s.Linked) (hslots : 0 < (s.lane n).cfg.slots) :
    (s.syncArrival n).Linked := by
  have htaken : (s.setLane n { s.lane n with arrivalDue := false }).Linked := h.setLane_samePlace ⟨rfl, rfl, rfl⟩
  unfold State.syncArrival
  dsimp only
  split
  · split
    · exact h
    · exact h.count hslots _
    · exact h.count hslots _
    · exact htaken.enterHunt (State.slots_setLane hslots rfl) _
    · exact htaken.earlyStop n _
  · exact h

theorem State.Linked.afterCheck {s : State} {n : LaneId} (h : s.Linked) (hslots : 0 < (s.lane n).cfg.slots) :
    (s.afterCheck n).Linked := by
  unfold State.afterCheck
  split
  · exact h
  · exact h.frameStartSampled hslots

theorem State.Linked.syncCheckPoint {s : State} {n : LaneId} (h : s.Linked) (hslots : 0 < (s.lane n).cfg.slots) :
    (s.syncCheckPoint n).Linked := by
  have hchecked : (s.setLane n (s.lane n).checked).Linked := h.setLane_samePlace ⟨rfl, rfl, rfl⟩
  have hcounted : ∀ m, (s.setLane n { (s.lane n).checked with missedRun := m }).Linked :=
    fun m => h.setLane_samePlace ⟨rfl, rfl, rfl⟩
  unfold State.syncCheckPoint
  dsimp only
  split
  · split
    · split
      · exact (hcounted 0).afterCheck (State.slots_setLane hslots rfl)
      · split
        · exact (hcounted _).afterCheck (State.slots_setLane hslots rfl)
        · exact hchecked.enterHunt (State.slots_setLane hslots rfl) _
    · split
      · exact hchecked.completeStop n
      · exact hcounted _
    · exact h
    · exact h
    · exact h
  · exact h

theorem State.Linked.watchExpiry {s : State} {n : LaneId} (h : s.Linked) (hslots : 0 < (s.lane n).cfg.slots) :
    (s.watchExpiry n).Linked := by
  have hexpired : (s.setLane n { s.lane n with watchRunning := false }).Linked := h.setLane_samePlace ⟨rfl, rfl, rfl⟩
  have hreset : (s.setLane n { s.lane n with watchRunning := false, goodSyncs := 0, lastSync := none }).Linked :=
    h.setLane_samePlace ⟨rfl, rfl, rfl⟩
  unfold State.watchExpiry
  dsimp only
  split
  · split
    · exact h
    · exact hreset
    · exact hreset
    · exact hexpired.enterHunt (State.slots_setLane hslots rfl) _
    · exact hexpired.earlyStop n _
  · exact h

/-! ## Frames and slots (R48, R51, R95, R102) -/

theorem State.Linked.frameStartEvent {s : State} {n : LaneId} (h : s.Linked) (hslots : 0 < (s.lane n).cfg.slots) :
    (s.frameStartEvent n).Linked := by
  unfold State.frameStartEvent
  split
  · exact h.frameStart hslots
  · exact h

theorem State.Linked.slotStartEvent {s : State} {n : LaneId} (h : s.Linked) : (s.slotStartEvent n).Linked := by
  unfold State.slotStartEvent
  dsimp only
  split
  · rename_i hdue
    obtain ⟨-, -, -, -, hlen, -⟩ := (s.lane n).slotStartDue_iff.mp hdue
    have hopened : (s.setLane n (s.lane n).openNext).Linked := h.setLane_samePlace ⟨rfl, rfl, rfl⟩
    refine hopened.toSeated.slotStart (hopened.targetsBut n) ?_
    rw [State.lane_setLane_self]
    refine Nat.div_lt_of_lt_mul ?_
    rw [Nat.mul_comm]
    exact hlen
  · exact h

/-- A slot end claims at the ring of the lane's receive target, whose producer seat the lane holds. -/
theorem State.Linked.receiveHalf {s : State} {n : LaneId} (h : s.Linked) (c : Cell) :
    (s.receiveHalf n (s.lane n).rxTarget c).Linked := by
  cases htarget : (s.lane n).rxTarget with
  | ignore => exact h
  | ring r => exact h.appendClaim c (.lane n) (h.targets n r htarget) fun _ => nofun

theorem State.Linked.slotEnd {s : State} {n : LaneId} (h : s.Linked) : (s.slotEnd n).Linked := by
  unfold State.slotEnd
  dsimp only
  split
  · exact (h.receiveHalf _).setLane rfl id fun _ hr => RxTarget.noConfusion hr
  · exact h

theorem State.Linked.endOfFrame {s : State} (h : s.Linked) (n : LaneId) : (s.endOfFrame n).Linked := by
  unfold State.endOfFrame
  split
  · exact h.completeStop n
  · exact h

end Sys2Proof.Machine
end

section
/-! PROOFS. The commands on rings, on host agents and on channels keep seats, attachment records and requests in
agreement (R5 to R10, R12, R29 to R33, R130, R133, R134). -/

namespace Sys2Proof.Machine

/-! ## Rings -/

/-- Of the rings only such change that nobody is seated at, before and after. -/
theorem State.Linked.of_unseated {s t : State} (h : s.Linked)
    (hseat : ∀ r side, (t.ring r).seat side = (s.ring r).seat side)
    (hring : ∀ r side, (s.ring r).seat side ≠ .free → t.ring r = s.ring r) (hlanes : t.lanes = s.lanes)
    (hmaps : t.maps = s.maps) (hchans : t.chans = s.chans) (hpr : t.pr = s.pr) (hpw : t.pw = s.pw) : t.Linked := by
  have hlane : ∀ n, t.lane n = s.lane n := fun n => congrArg (·[n.val]) hlanes
  have hmap : ∀ n, t.smap n = s.smap n := fun n => congrArg (·[n.val]) hmaps
  have hchan : ∀ ch, t.chan ch = s.chan ch := fun ch => congrArg (·[ch.val]) hchans
  have hattach : ∀ a, t.attachOf a = s.attachOf a := fun a => by
    cases a with
    | pr => exact congrArg ReadPort.attach hpr
    | pw => exact congrArg WritePort.attach hpw
    | dma ch => exact congrArg Channel.attach (hchan ch)
  have hseated : ∀ a att, s.attachOf a = some att → t.ring att.ring = s.ring att.ring := fun a att ha => by
    have hheld := (h.agents a att.ring att.side).1.mpr ha
    exact hring att.ring att.side (by rw [hheld]; exact nofun)
  refine ⟨⟨fun a r side => ?_, fun n r side => ?_, fun n => ?_, fun n r side htaken => ?_, fun ch => ?_, ?_⟩, fun n r => ?_⟩
  · rw [hseat, hattach]
    exact h.agents a r side
  · rw [hseat, hlane, hmap]
    exact h.laneSeats n r side
  · rw [hlane, hmap]
    simp only [hseat]
    exact h.reservations n
  · rw [hseat] at htaken
    rw [hring r side (by rcases htaken with heq | heq <;> rw [heq] <;> exact nofun), hlane]
    exact h.laneRings n r side htaken
  · refine (h.requests ch).of_available (hchan ch) fun a ha => ?_
    rw [hseated (.dma ch) a ha]
    exact ⟨rfl, Nat.le_refl _⟩
  · rw [State.PortsOk, hpr, hpw]
    refine ⟨fun hlatch => ?_, fun hstaging => ?_⟩
    · obtain ⟨a, ha, hwidth⟩ := h.ports.1 hlatch
      exact ⟨a, ha, by rw [hseated .pr a ha]; exact hwidth⟩
    · obtain ⟨a, ha, hwidth⟩ := h.ports.2 hstaging
      exact ⟨a, ha, by rw [hseated .pw a ha]; exact hwidth⟩
  · show (t.lane n).rxTarget = .ring r → (t.ring r).seat .producer = .held (.lane n)
    rw [hseat, hlane]
    exact h.targets n r

theorem State.Linked.setRing_unseated {s : State} {r : RingId} {g : Ring} (h : s.Linked)
    (hfree : ∀ side, (s.ring r).seat side = .free) (hg : ∀ side, g.seat side = .free) : (s.setRing r g).Linked := by
  refine h.of_unseated (fun q side => ?_) (fun q side htaken => ?_) rfl rfl rfl rfl rfl
  · by_cases hq : q = r
    · subst hq
      rw [State.ring_setRing_self, hg, hfree]
    · rw [State.ring_setRing_of_ne _ _ _ _ hq]
  · exact State.ring_setRing_of_ne _ _ _ _ fun hq => htaken (hq ▸ hfree side)

theorem State.Linked.openRing {s : State} {r : RingId} (h : s.Linked) (hrings : s.RingsOk)
    (hclosed : (s.ring r).state = .closed) (base length width : Nat) :
    (s.setRing r (.afterOpen base length width)).Linked := by
  refine h.setRing_unseated (fun side => ?_) fun side => ?_
  · rw [(hrings r).1 hclosed, Ring.seat_reset]
  · cases side <;> rfl

theorem State.Linked.closeRing {s : State} {r : RingId} (h : s.Linked) (hproducer : (s.ring r).producer = .free)
    (hconsumer : (s.ring r).consumer = .free) : (s.setRing r .reset).Linked := by
  refine h.setRing_unseated (fun side => ?_) Ring.seat_reset
  cases side with
  | producer => exact hproducer
  | consumer => exact hconsumer

/-- A change of a ring's record that leaves its seats and its cells. -/
theorem State.Linked.setRing_books {s : State} {r : RingId} {g : Ring} (h : s.Linked) (hsame : (s.ring r).SameSeating g)
    (hlevel : g.level = (s.ring r).level) : (s.setRing r g).Linked :=
  h.of_sameSeating (State.sameSeating_setRing hsame) fun ch => (h.requests ch).keepBooks hsame.state hlevel hsame.cap

theorem State.Linked.rezone {s : State} (h : s.Linked) (r : RingId) : (s.rezone r).Linked :=
  h.of_sameSeating (s.sameSeating_rezone r) fun ch => (h.requests ch).rezone r

/-- A channel without a grant asks nothing of its ring but to be OPEN. -/
theorem State.RequestOk.of_no_grant {s t : State} {ch : ChanId} (h : s.RequestOk ch) (hgrant : (s.chan ch).grant = 0)
    (hchan : t.chan ch = s.chan ch) (hstate : ∀ r, (t.ring r).state = (s.ring r).state) : t.RequestOk ch := by
  obtain ⟨hok, hbacked⟩ := h
  rw [State.RequestOk, hchan]
  exact ⟨hok, fun a ha => ⟨(hstate _).trans (hbacked a ha).1, hgrant ▸ Nat.zero_le _⟩⟩

theorem Channel.Ok.grant_of_inactive {c : Channel} (h : c.Ok) (hstate : c.state ≠ .active) : c.grant = 0 := by
  obtain ⟨-, -, -, -, -, hactive, -⟩ := h
  by_contra hgrant
  exact hstate (hactive (Nat.pos_of_ne_zero hgrant))

/-- A flush finds no ACTIVE channel at its ring, so that no grant stands there (R7). -/
theorem State.Linked.flush {s : State} {r : RingId} (h : s.Linked) (hidle : s.activeAt r = false) : (s.flush r).Linked := by
  have hset : s.SameSeating (s.setRing r (s.ring r).flushed) := State.sameSeating_setRing ⟨rfl, rfl, rfl, rfl, rfl⟩
  rw [State.flush_of_idle hidle]
  refine State.Linked.rezone (h.of_sameSeating hset fun ch => ?_) r
  by_cases hgrant : (s.chan ch).grant = 0
  · exact (h.requests ch).of_no_grant hgrant rfl fun q => (hset.ring q).state
  · refine (h.requests ch).setRing rfl fun side ha => absurd hidle (Bool.not_eq_false _ ▸ ?_)
    refine (s.activeAt_iff r).mpr ⟨ch, ⟨r, side⟩, ha, rfl, ?_⟩
    by_contra hstate
    exact hgrant ((h.requests ch).1.grant_of_inactive hstate)

/-! ## Host agents -/

/-- A seat that the agent takes or leaves: FREE, or HELD by it. -/
def Seat.FreeForAgent (seat : Seat) (a : Agent) : Prop := seat = .free ∨ seat = .held (.agent a)

/-- From `s` to `t` only agent `a` and the seat that it takes or leaves change. -/
structure State.MovesAgent (s t : State) (a : Agent) (att : Attachment) : Prop where
  ring : ∀ r, (s.ring r).SameButSeats (t.ring r)
  seat : ∀ r side, (t.ring r).seat side = (s.ring r).seat side ∨
    (⟨r, side⟩ : Attachment) = att ∧ ((s.ring r).seat side).FreeForAgent a ∧ ((t.ring r).seat side).FreeForAgent a
  others : ∀ b, b ≠ a → t.attachOf b = s.attachOf b
  before : ∀ x, s.attachOf a = some x → x = att
  after : ∀ x, t.attachOf a = some x → x = att
  lanes : t.lanes = s.lanes
  maps : t.maps = s.maps

theorem State.MovesAgent.seat_iff {s t : State} {a : Agent} {att : Attachment} (h : s.MovesAgent t a att) {x : Seat}
    (hx : ¬x.FreeForAgent a) (r : RingId) (side : Side) : (t.ring r).seat side = x ↔ (s.ring r).seat side = x := by
  rcases h.seat r side with hsame | ⟨-, hs, ht⟩
  · rw [hsame]
  · exact ⟨fun heq => absurd (heq ▸ ht) hx, fun heq => absurd (heq ▸ hs) hx⟩

theorem Seat.not_freeForAgent_lane (a : Agent) (n : LaneId) : ¬(Seat.held (.lane n)).FreeForAgent a := by
  rintro (h | h) <;> cases h

theorem Seat.not_freeForAgent_reserved (a : Agent) (n : LaneId) : ¬(Seat.reserved n).FreeForAgent a := by
  rintro (h | h) <;> cases h

theorem Seat.not_freeForAgent_other {a b : Agent} (h : b ≠ a) : ¬(Seat.held (.agent b)).FreeForAgent a := by
  rintro (heq | heq)
  · cases heq
  · exact h (Holder.agent.inj (Seat.held.inj heq))

theorem State.Linked.of_agent {s t : State} {a : Agent} {att : Attachment} (h : s.Linked) (hmoves : s.MovesAgent t a att)
    (hown : (t.ring att.ring).seat att.side = .held (.agent a) ↔ t.attachOf a = some att)
    (hfits : t.attachOf a = some att → a.fits att.side = true) (hrequests : ∀ ch, t.RequestOk ch) (hports : t.PortsOk) :
    t.Linked := by
  have hlane : ∀ n, t.lane n = s.lane n := fun n => congrArg (·[n.val]) hmoves.lanes
  have hmap : ∀ n, t.smap n = s.smap n := fun n => congrArg (·[n.val]) hmoves.maps
  have hheld : ∀ n r side, (t.ring r).seat side = .held (.lane n) ↔ (s.ring r).seat side = .held (.lane n) :=
    fun n => hmoves.seat_iff (Seat.not_freeForAgent_lane a n)
  have hreserved : ∀ n r side, (t.ring r).seat side = .reserved n ↔ (s.ring r).seat side = .reserved n :=
    fun n => hmoves.seat_iff (Seat.not_freeForAgent_reserved a n)
  refine ⟨⟨fun b r side => ?_, fun n r side => ?_, fun n => ?_, fun n r side => ?_, hrequests, hports⟩, fun n r => ?_⟩
  · by_cases hb : b = a
    · subst hb
      by_cases hat : (⟨r, side⟩ : Attachment) = att
      · subst hat
        exact ⟨hown, hfits⟩
      · have hseat := (hmoves.seat r side).resolve_right fun hmoved => hat hmoved.1
        refine ⟨⟨fun hs => ?_, fun ht => absurd (hmoves.after _ ht) hat⟩, fun ht => absurd (hmoves.after _ ht) hat⟩
        rw [hseat] at hs
        exact absurd (hmoves.before _ ((h.agents b r side).1.mp hs)) hat
    · rw [hmoves.seat_iff (Seat.not_freeForAgent_other hb), hmoves.others b hb]
      exact h.agents b r side
  · rw [hheld, hlane, hmap]
    exact h.laneSeats n r side
  · rw [hlane, hmap]
    simp only [hheld, hreserved]
    exact h.reservations n
  · rw [hheld, hreserved, hlane, hmoves.ring r]
    exact h.laneRings n r side
  · show (t.lane n).rxTarget = .ring r → (t.ring r).seat .producer = .held (.lane n)
    rw [hheld, hlane]
    exact h.targets n r

theorem Ring.sameButSeats_setSeat (g : Ring) (side : Side) (x : Seat) : g.SameButSeats (g.setSeat side x) := by
  cases side <;> rfl

theorem Ring.seat_setSeat (g : Ring) (side side' : Side) (x : Seat) :
    (g.setSeat side x).seat side' = if side' = side then x else g.seat side' := by
  cases side <;> cases side' <;> rfl

theorem State.sameButSeats_setSeat (s : State) (r q : RingId) (side : Side) (x : Seat) :
    (s.ring q).SameButSeats ((s.setRing r ((s.ring r).setSeat side x)).ring q) := by
  by_cases hq : q = r
  · subst hq
    rw [State.ring_setRing_self]
    exact Ring.sameButSeats_setSeat _ side x
  · rw [State.ring_setRing_of_ne _ _ _ _ hq]
    rfl

/-- One seat written. -/
theorem State.seat_setSeat (s : State) (r q : RingId) (side side' : Side) (x : Seat) :
    ((s.setRing r ((s.ring r).setSeat side x)).ring q).seat side' =
      if (⟨q, side'⟩ : Attachment) = ⟨r, side⟩ then x else (s.ring q).seat side' := by
  by_cases hq : q = r
  · subst hq
    rw [State.ring_setRing_self, Ring.seat_setSeat]
    simp only [Attachment.mk.injEq, true_and]
  · rw [State.ring_setRing_of_ne _ _ _ _ hq, if_neg fun heq => hq (congrArg Attachment.ring heq)]

theorem State.RequestOk.of_sameButSeats {s t : State} {ch : ChanId} (h : s.RequestOk ch) (hchan : t.chan ch = s.chan ch)
    (hring : ∀ r, (s.ring r).SameButSeats (t.ring r)) : t.RequestOk ch :=
  h.of_available hchan fun a _ => by
    rw [hring a.ring]
    refine ⟨rfl, ?_⟩
    cases a.side <;> exact Nat.le_refl _

/-- An unattached port has nothing in its register (R116, R119, R122, R125). -/
theorem State.Linked.latch_of_unattached {s : State} (h : s.Linked) (hnone : s.pr.attach = none) : s.pr.latch = 0 := by
  by_contra hlatch
  obtain ⟨a, ha, -⟩ := h.ports.1 hlatch
  rw [hnone] at ha
  cases ha

theorem State.Linked.staging_of_unattached {s : State} (h : s.Linked) (hnone : s.pw.attach = none) : s.pw.staging = 0 := by
  by_contra hstaging
  obtain ⟨a, ha, -⟩ := h.ports.2 hstaging
  rw [hnone] at ha
  cases ha

/-- The ports after a move of an agent: its own register is empty where it is a port. -/
theorem State.MovesAgent.portsOk {s t : State} {a : Agent} {att : Attachment} (h : s.MovesAgent t a att) (hs : s.PortsOk)
    (hpr : t.pr.latch ≠ 0 → a ≠ .pr ∧ s.pr.latch ≠ 0) (hpw : t.pw.staging ≠ 0 → a ≠ .pw ∧ s.pw.staging ≠ 0) : t.PortsOk := by
  refine ⟨fun hlatch => ?_, fun hstaging => ?_⟩
  · obtain ⟨hne, hold⟩ := hpr hlatch
    obtain ⟨x, hx, hwidth⟩ := hs.1 hold
    refine ⟨x, (h.others .pr hne.symm).trans hx, ?_⟩
    rw [h.ring x.ring]
    exact hwidth
  · obtain ⟨hne, hold⟩ := hpw hstaging
    obtain ⟨x, hx, hwidth⟩ := hs.2 hold
    refine ⟨x, (h.others .pw hne.symm).trans hx, ?_⟩
    rw [h.ring x.ring]
    exact hwidth

theorem State.ring_attachAgent (s : State) (a : Agent) (r q : RingId) (side : Side) :
    (s.attachAgent a r side).ring q = (s.setRing r ((s.ring r).setSeat side (.held (.agent a)))).ring q :=
  State.ring_setRecord _ a _ q

theorem State.chan_setRecord_of_ne (s : State) {a : Agent} (x : AttachRecord) {d : ChanId} (h : .dma d ≠ a) :
    (s.setRecord a x).chan d = s.chan d := by
  cases a with
  | pr => rfl
  | pw => rfl
  | dma ch => exact State.chan_setChan_of_ne s ch d _ fun hd => h (congrArg Agent.dma hd)

theorem State.movesAgent_attach {s : State} {a : Agent} {r : RingId} {side : Side} (hidle : s.attachOf a = none)
    (hfree : (s.ring r).seat side = .free) : s.MovesAgent (s.attachAgent a r side) a ⟨r, side⟩ where
  ring q := by
    rw [State.ring_attachAgent]
    exact s.sameButSeats_setSeat r q side _
  seat q side' := by
    rw [State.ring_attachAgent, State.seat_setSeat]
    split
    · rename_i hat
      obtain ⟨rfl, rfl⟩ := Attachment.mk.inj hat
      exact .inr ⟨rfl, .inl hfree, .inr rfl⟩
    · exact .inl rfl
  others b hb := s.attachOf_attachAgent_of_ne r side hb
  before x hx := by
    rw [hidle] at hx
    cases hx
  after x hx := by
    rw [State.attachOf_attachAgent_self] at hx
    exact (Option.some.inj hx).symm
  lanes := by rw [State.attachAgent_frame]
  maps := by rw [State.attachAgent_frame]

/-- An idle channel's record with another attachment (R31). -/
theorem Channel.Ok.attached {c : Channel} (h : c.Ok) (hidle : c.state = .idle) (x : AttachRecord) :
    ({ c with record := x } : Channel).Ok := by
  obtain ⟨hlow, hhigh, hquantum, hcount, -, hactive, htally, hgap⟩ := h
  exact ⟨hlow, hhigh, hquantum, hcount, fun hstate => absurd hidle hstate, hactive, htally, hgap⟩

theorem Channel.Ok.idle_of_unattached {c : Channel} (h : c.Ok) (hnone : c.attach = none) : c.state = .idle := by
  obtain ⟨-, -, -, -, hattached, -⟩ := h
  by_contra hstate
  exact hattached hstate hnone

theorem State.Linked.attach {s : State} {a : Agent} {r : RingId} {side : Side} (h : s.Linked) (hfits : a.fits side = true)
    (hopen : (s.ring r).state = .opened) (hidle : s.attachOf a = none) (hfree : (s.ring r).seat side = .free) :
    (s.attachAgent a r side).Linked := by
  have hmoves := State.movesAgent_attach hidle hfree
  have hattach := s.attachOf_attachAgent_self a r side
  refine h.of_agent hmoves ⟨fun _ => hattach, fun _ => ?_⟩ (fun _ => hfits) (fun d => ?_) (hmoves.portsOk h.ports ?_ ?_)
  · rw [State.ring_attachAgent, State.seat_setSeat, if_pos rfl]
  · by_cases hd : .dma d = a
    · subst hd
      have hstate := (h.requests d).1.idle_of_unattached hidle
      have hself : (s.attachAgent (.dma d) r side).chan d = { s.chan d with record := .taken r side } :=
        State.chan_setChan_self _ d _
      rw [State.RequestOk, hself]
      refine ⟨(h.requests d).1.attached hstate _, fun x hx => ?_⟩
      have hx : some (⟨r, side⟩ : Attachment) = some x := hx
      obtain rfl := Option.some.inj hx
      refine ⟨?_, ?_⟩
      · rw [hmoves.ring r]
        exact hopen
      · show (s.chan d).grant ≤ _
        rw [(h.requests d).1.grant_of_inactive (by rw [hstate]; exact nofun)]
        exact Nat.zero_le _
    · exact (h.requests d).of_sameButSeats (State.chan_setRecord_of_ne _ _ hd) hmoves.ring
  · rw [State.attachAgent, State.pr_setRecord]
    refine fun hlatch => ⟨fun ha => ?_, hlatch⟩
    subst ha
    exact hlatch (h.latch_of_unattached hidle)
  · rw [State.attachAgent, State.pw_setRecord]
    refine fun hstaging => ⟨fun ha => ?_, hstaging⟩
    subst ha
    exact hstaging (h.staging_of_unattached hidle)

theorem State.movesAgent_detach {s : State} {a : Agent} {att : Attachment} (hatt : s.attachOf a = some att)
    (hheld : (s.ring att.ring).seat att.side = .held (.agent a)) : s.MovesAgent (s.detachAgent a att) a att where
  ring q := by
    rw [State.ring_detachAgent]
    exact s.sameButSeats_setSeat att.ring q att.side _
  seat q side' := by
    rw [State.ring_detachAgent, State.seat_setSeat]
    split
    · rename_i hat
      obtain rfl : att = ⟨q, side'⟩ := hat.symm
      exact .inr ⟨rfl, .inr hheld, .inl rfl⟩
    · exact .inl rfl
  others b hb := State.attachOf_clearAgent_of_ne _ hb
  before x hx := Option.some.inj (hx.symm.trans hatt)
  after x hx := by
    rw [State.detachAgent, State.attachOf_clearAgent_self] at hx
    cases hx
  lanes := by rw [State.detachAgent_frame]
  maps := by rw [State.detachAgent_frame]

/-- The record of an idle channel after DETACH (R33). -/
theorem Channel.Ok.detached {c : Channel} (h : c.Ok) (hidle : c.state = .idle) (x : AttachRecord) :
    ({ c with record := x, latch := 0, staging := 0, grant := 0, gap := false, phase := .first } : Channel).Ok := by
  obtain ⟨hlow, hhigh, -, hcount, -⟩ := h
  exact ⟨hlow, hhigh, Nat.zero_le _, hcount, fun hstate => absurd hidle hstate, fun hg => absurd hg (Nat.lt_irrefl 0),
    fun _ hactive => ChanState.noConfusion (hidle.symm.trans hactive), fun hg => Bool.noConfusion hg⟩

theorem State.Linked.detach {s : State} {a : Agent} {att : Attachment} (h : s.Linked) (hatt : s.attachOf a = some att)
    (hidle : s.agentRunning a = false) : (s.detachAgent a att).Linked := by
  have hmoves := State.movesAgent_detach hatt ((h.agents a att.ring att.side).1.mpr hatt)
  have hnone : (s.detachAgent a att).attachOf a = none := State.attachOf_clearAgent_self _ a
  have hfreed : ((s.detachAgent a att).ring att.ring).seat att.side = .free := by
    rw [State.ring_detachAgent, State.seat_setSeat, if_pos rfl]
  refine h.of_agent hmoves ?_ (fun hx => ?_) (fun d => ?_) (hmoves.portsOk h.ports ?_ ?_)
  · rw [hfreed, hnone]
    exact ⟨nofun, nofun⟩
  · rw [hnone] at hx
    cases hx
  · have hchan := State.chan_clearAgent (s.setRing att.ring ((s.ring att.ring).setSeat att.side .free)) a d
    by_cases hd : a = .dma d
    · subst hd
      have hstate : (s.chan d).state = .idle := by simpa [State.agentRunning] using hidle
      rw [if_pos rfl] at hchan
      rw [State.RequestOk, State.detachAgent, hchan]
      exact ⟨(h.requests d).1.detached hstate _, fun x hx => nomatch hx⟩
    · rw [if_neg hd] at hchan
      exact (h.requests d).of_sameButSeats hchan hmoves.ring
  · rw [State.detachAgent, State.pr_clearAgent]
    split
    · exact fun hlatch => absurd rfl hlatch
    · rename_i ha
      exact fun hlatch => ⟨ha, hlatch⟩
  · rw [State.detachAgent, State.pw_clearAgent]
    split
    · exact fun hstaging => absurd rfl hstaging
    · rename_i ha
      exact fun hstaging => ⟨ha, hstaging⟩

/-! ## Channels -/

/-- The record after DMA_SET differs in a setting only. -/
theorem Channel.put_frame (c : Channel) (setting : Nat) (value : Word) :
    c.put setting value = { c with
      mode := (c.put setting value).mode, quantum := (c.put setting value).quantum,
      count := (c.put setting value).count, form := (c.put setting value).form } := by
  unfold Channel.put
  split <;> rfl

/-- DMA_SET takes values that its setting can have (R130). -/
theorem Channel.put_settings {c : Channel} {setting : Nat} {value : Word} (hok : dmaSettingOk setting value.toNat = true)
    (hlow : 1 ≤ c.quantum) (hhigh : c.quantum ≤ 16) (hcount : c.count ≠ 0) :
    1 ≤ (c.put setting value).quantum ∧ (c.put setting value).quantum ≤ 16 ∧ (c.put setting value).count ≠ 0 := by
  unfold dmaSettingOk at hok
  unfold Channel.put
  split at hok
  · exact ⟨hlow, hhigh, hcount⟩
  · simp only [Bool.or_eq_true, beq_iff_eq] at hok
    dsimp only
    exact ⟨by omega, by omega, hcount⟩
  · refine ⟨hlow, hhigh, fun hzero => ?_⟩
    have hzero : value = 0 := hzero
    rw [hzero] at hok
    exact absurd hok (by decide)
  · exact ⟨hlow, hhigh, hcount⟩
  · exact Bool.noConfusion hok

theorem State.Linked.setDma {s : State} {ch : ChanId} {setting : Nat} {value : Word} (h : s.Linked)
    (hok : dmaSettingOk setting value.toNat = true) (hidle : (s.chan ch).state = .idle) :
    (s.setChan ch ((s.chan ch).put setting value)).Linked := by
  have hgrant := (h.requests ch).1.grant_of_inactive (by rw [hidle]; exact nofun)
  obtain ⟨hlow, hhigh, -, hcount, -, -, -, hgap⟩ := (h.requests ch).1
  obtain ⟨hlow', hhigh', hcount'⟩ := Channel.put_settings hok hlow hhigh hcount
  rw [Channel.put_frame]
  refine h.setChan rfl ⟨hlow', hhigh', ?_, hcount', fun hstate => absurd hidle hstate, fun hg => ?_, fun _ hactive => ?_,
    hgap⟩ (Nat.le_refl _)
  · show (s.chan ch).grant ≤ _
    rw [hgrant]
    exact Nat.zero_le _
  · exact absurd hgrant (Nat.ne_of_gt hg)
  · exact ChanState.noConfusion (hidle.symm.trans hactive)

theorem Channel.Ok.started {c : Channel} (h : c.Ok) (hattached : c.attach ≠ none) : c.started.Ok := by
  obtain ⟨hlow, hhigh, -, hcount, -⟩ := h
  refine ⟨hlow, hhigh, Nat.zero_le _, hcount, fun _ => hattached, fun hg => absurd hg (Nat.lt_irrefl 0),
    fun hmode _ => ⟨Nat.zero_le _, ?_⟩, fun hg => Bool.noConfusion hg⟩
  have hmode : c.mode = .count := hmode
  simp only [Channel.started, hmode]
  exact hcount

theorem Channel.Ok.halted {c : Channel} (h : c.Ok) : c.halted.Ok := by
  obtain ⟨hlow, hhigh, -, hcount, -⟩ := h
  exact ⟨hlow, hhigh, Nat.zero_le _, hcount, fun hstate => absurd rfl hstate, fun hg => absurd hg (Nat.lt_irrefl 0),
    fun _ hactive => ChanState.noConfusion hactive, fun hg => Bool.noConfusion hg⟩

theorem State.Linked.evaluate {s : State} (h : s.Linked) (ch : ChanId) : (s.evaluate ch).Linked :=
  h.of_sameSeating (s.sameSeating_evaluate ch) fun d => (h.requests d).evaluate ch

theorem State.Linked.go {s : State} {ch : ChanId} (h : s.Linked) (hattached : (s.chan ch).attach ≠ none) :
    ((s.setChan ch (s.chan ch).started).evaluate ch).Linked :=
  (h.setChan (c := (s.chan ch).started) rfl ((h.requests ch).1.started hattached) (Nat.zero_le _)).evaluate ch

theorem State.Linked.halt {s : State} (h : s.Linked) (ch : ChanId) : (s.setChan ch (s.chan ch).halted).Linked :=
  h.setChan (c := (s.chan ch).halted) rfl (h.requests ch).1.halted (Nat.zero_le _)

end Sys2Proof.Machine
end

section
/-! PROOFS. The commands on lanes and slot maps keep seats, reservations, live banks and targets in agreement (R46, R50
to R52, R74, R76 to R84, R89). -/

namespace Sys2Proof.Machine

/-! ## Moves of a lane's seats -/

theorem State.MovesSeatsOf.trans {s t u : State} {n : LaneId} (h1 : s.MovesSeatsOf t n) (h2 : t.MovesSeatsOf u n) :
    s.MovesSeatsOf u n where
  ring r := (h1.ring r).trans (h2.ring r)
  seat r side := by
    rcases h2.seat r side with hsame | ⟨ht, hu⟩
    · rw [hsame]
      exact h1.seat r side
    · rcases h1.seat r side with hsame | ⟨hs, -⟩
      · exact .inr ⟨hsame ▸ ht, hu⟩
      · exact .inr ⟨hs, hu⟩
  lanes m hm := (h2.lanes m hm).trans (h1.lanes m hm)
  maps m hm := (h2.maps m hm).trans (h1.maps m hm)
  chans := h2.chans.trans h1.chans
  pr := h2.pr.trans h1.pr
  pw := h2.pw.trans h1.pw

theorem State.movesSeatsOf_setSmap (s : State) (n : LaneId) (m : SlotMap) : s.MovesSeatsOf (s.setSmap n m) n where
  ring _ := rfl
  seat _ _ := .inl rfl
  lanes _ _ := rfl
  maps j hj := s.smap_setSmap_of_ne n j m hj
  chans := rfl
  pr := rfl
  pw := rfl

theorem Seat.freeFor_reserveFor (seat : Seat) (n : LaneId) (named : Bool) :
    seat.reserveFor n named = seat ∨ seat.FreeFor n ∧ (seat.reserveFor n named).FreeFor n := by
  rw [Seat.reserveFor_eq]
  split
  · rename_i htakes
    exact .inr ⟨.inl htakes.2, .inr (.inl rfl)⟩
  · exact .inl rfl

theorem State.movesSeatsOf_reserveSeats (s : State) (n : LaneId) : s.MovesSeatsOf (s.reserveSeats n) n where
  ring := s.sameButSeats_reserveSeats n
  seat r side := by
    rw [State.seat_reserveSeats]
    exact Seat.freeFor_reserveFor _ n _
  lanes m _ := s.lane_reserveSeats n m
  maps m _ := s.smap_reserveSeats n m
  chans := by rw [State.reserveSeats_frame]
  pr := by rw [State.reserveSeats_frame]
  pw := by rw [State.reserveSeats_frame]

theorem State.movesSeatsOf_dropSwap (s : State) (n : LaneId) : s.MovesSeatsOf (s.dropSwap n) n where
  ring := s.sameButSeats_dropSwap n
  seat r side := by
    rw [State.seat_dropSwap]
    split
    · rename_i hreserved
      exact .inr ⟨.inr (.inl hreserved), .inl rfl⟩
    · exact .inl rfl
  lanes m _ := congrArg (·[m.val]) (s.lanes_dropSwap n)
  maps _ hm := s.smap_dropSwap_of_ne hm
  chans := by rw [State.dropSwap_frame]
  pr := by rw [State.dropSwap_frame]
  pw := by rw [State.dropSwap_frame]

/-! ## LANE_SET (R46, R74) -/

theorem State.movesSeatsOf_putParam (s : State) (n : LaneId) (param value : Nat) :
    s.MovesSeatsOf (s.putParam n param value) n where
  ring r := by
    rw [State.putParam_frame]
    rfl
  seat r side := by
    rw [State.putParam_frame]
    exact .inl rfl
  lanes _ hm := s.lane_putParam_of_ne param value hm
  maps _ hm := s.smap_putParam_of_ne param value hm
  chans := by rw [State.putParam_frame]
  pr := by rw [State.putParam_frame]
  pw := by rw [State.putParam_frame]

theorem SlotEntry.names_unnamed (e : SlotEntry) (side : Side) : e.unnamed.names side = none := by
  cases side with
  | producer =>
    cases hkind : e.rxKind <;> simp [SlotEntry.names, SlotEntry.unnamed, hkind]
  | consumer =>
    cases hkind : e.txKind <;> simp [SlotEntry.names, SlotEntry.unnamed, hkind]

/-- What a raised bank names in the counted range, the bank named there before (R74). -/
theorem bankNames_of_raised {b : Bank} {old new : Nat} {side : Side} {r : RingId}
    (h : bankNames (Bank.raised b old new) new side r = true) : bankNames b old side r = true := by
  obtain ⟨i, hi, hnames⟩ := (bankNames_iff _ _ _ _).mp h
  rw [Bank.getElem_raised] at hnames
  split at hnames
  · rw [SlotEntry.names_unnamed] at hnames
    cases hnames
  · rename_i hold
    exact (bankNames_iff _ _ _ _).mpr ⟨i, by omega, hnames⟩

/-- A lane without seats and without a pending swap, whose live bank then names no ring. -/
theorem State.laneSeated_of_none {s : State} {n : LaneId} (hidle : (s.smap n).swapPending = false)
    (hnone : ∀ r side, (s.ring r).seat side ≠ .held (.lane n) ∧ (s.ring r).seat side ≠ .reserved n)
    (hunnamed : ∀ r side, bankNames (s.smap n).liveBank (s.lane n).cfg.slots side r ≠ true) : s.LaneSeated n where
  held r side := ⟨fun h => absurd h (hnone r side).1, fun h => absurd h (hunnamed r side)⟩
  on hpending := Bool.noConfusion (hidle.symm.trans hpending)
  reserved r side h := absurd h (hnone r side).2
  named hpending := Bool.noConfusion (hidle.symm.trans hpending)
  fits r side h := (h.elim (hnone r side).1 (hnone r side).2).elim

theorem State.LaneSeated.putParam_seatless {s : State} {n : LaneId} {param value : Nat} (h : s.LaneSeated n)
    (hseatless : s.laneHasSeat n = false) (hidle : (s.smap n).swapPending = false)
    (hmoves : param = 1 ∨ param = 2) : (s.putParam n param value).LaneSeated n := by
  have hnone : ∀ r side, (s.ring r).seat side ≠ .held (.lane n) ∧ (s.ring r).seat side ≠ .reserved n := fun r side => by
    rw [← not_or]
    intro hseat
    rw [(s.laneHasSeat_iff n).mpr ⟨r, side, hseat⟩] at hseatless
    cases hseatless
  have hunnamed : ∀ r side, bankNames (s.smap n).liveBank (s.lane n).cfg.slots side r ≠ true :=
    fun r side hname => (hnone r side).1 ((h.held r side).mpr hname)
  have hring : ∀ r, (s.putParam n param value).ring r = s.ring r := fun r => by
    rw [State.putParam_frame]
    rfl
  have hmap := s.smap_putParam_self n param value
  have hlane := s.lane_putParam_self n param value
  rcases hmoves with rfl | rfl
  · rw [if_pos rfl] at hmap
    refine State.laneSeated_of_none ?_ (fun r side => ?_) fun r side hname => ?_
    · rw [hmap]
      unfold SlotMap.setLive
      split <;> exact hidle
    · rw [hring]
      exact hnone r side
    · rw [hmap, SlotMap.liveBank_setLive, hlane] at hname
      exact hunnamed r side (bankNames_of_raised hname)
  · rw [if_neg (by decide)] at hmap
    refine State.laneSeated_of_none ?_ (fun r side => ?_) fun r side => ?_
    · rw [hmap]
      exact hidle
    · rw [hring]
      exact hnone r side
    · rw [hmap, hlane]
      exact hunnamed r side

theorem State.Linked.putParam {s : State} {n : LaneId} {param value : Nat} (h : s.Linked)
    (hseatless : paramMovesSeats param = true → s.laneHasSeat n = false ∧ (s.smap n).swapPending = false) :
    (s.putParam n param value).Linked := by
  have hmoves := s.movesSeatsOf_putParam n param value
  refine h.of_lane hmoves ?_ fun r hr => ?_
  · by_cases hparam : param = 1 ∨ param = 2
    · obtain ⟨hnone, hidle⟩ := hseatless ((paramMovesSeats_iff param).mpr hparam)
      exact (h.lane n).putParam_seatless hnone hidle hparam
    · rw [not_or] at hparam
      have hput : s.putParam n param value = s.setLane n { s.lane n with cfg := (s.lane n).cfg.put param value } := by
        simp only [State.putParam, if_neg hparam.1]
      rw [hput]
      refine (h.lane n).setLane_layout ?_ ?_ id
      · rw [LaneConfig.put_eq]
        exact if_neg hparam.1
      · rw [LaneConfig.put_eq]
        exact if_neg hparam.2
  · rw [State.lane_putParam_self] at hr
    have hring : (s.putParam n param value).ring r = s.ring r := by
      rw [State.putParam_frame]
      rfl
    rw [hring]
    exact h.targets n r hr

/-! ## LANE_START and LANE_STOP (R50, R51) -/

theorem State.Linked.startMaster {s : State} {n : LaneId} (h : s.Linked) (hslots : 0 < (s.lane n).cfg.slots) :
    (s.startMaster n).Linked := by
  have hcleared : (s.setLane n { (s.lane n).cleared with state := .running, lockNotice := some .locked }).Linked :=
    h.setLane rfl (fun hoff => LaneState.noConfusion hoff) fun _ => id
  have hstarted := hcleared.frameStart (State.slots_setLane hslots rfl)
  exact hstarted.setLane_samePlace (Lane.samePlace_drive _)

theorem State.Linked.startFollower {s : State} (h : s.Linked) (n : LaneId) : (s.startFollower n).Linked :=
  h.setLane rfl (fun hoff => LaneState.noConfusion hoff) fun _ => id

theorem State.Linked.stop {s : State} (h : s.Linked) (n : LaneId) :
    (s.setLane n { s.lane n with state := .stopping }).Linked :=
  h.setLane rfl (fun hoff => LaneState.noConfusion hoff) fun _ => id

/-! ## Slot maps (R76 to R84, R89) -/

/-- With no swap pending the edit bank is nobody's. -/
theorem State.Linked.edit {s : State} {n : LaneId} (h : s.Linked) (b : Bank) (hidle : (s.smap n).swapPending = false) :
    (s.setSmap n ((s.smap n).setEdit b)).Linked := by
  have hmap := s.smap_setSmap_self n ((s.smap n).setEdit b)
  have hpending : ((s.smap n).setEdit b).swapPending = false := (SlotMap.swapPending_setEdit _ b).trans hidle
  refine h.of_lane (s.movesSeatsOf_setSmap n _) ?_ (h.targets n)
  refine ⟨fun r side => ?_, fun hp => ?_, fun r side hseat => ?_, fun hp => ?_, (h.lane n).fits⟩
  · rw [hmap, SlotMap.liveBank_setEdit]
    exact (h.lane n).held r side
  · rw [hmap, hpending] at hp
    cases hp
  · have hp := ((h.lane n).reserved r side hseat).1
    rw [hidle] at hp
    cases hp
  · rw [hmap, hpending] at hp
    cases hp

/-- A reservation leaves who holds what. -/
theorem State.held_reserveSeats (s : State) (n m : LaneId) (r : RingId) (side : Side) :
    ((s.reserveSeats n).ring r).seat side = .held (.lane m) ↔ (s.ring r).seat side = .held (.lane m) := by
  rw [State.seat_reserveSeats, Seat.reserveFor_eq]
  split
  · rename_i htakes
    rw [htakes.2]
    exact ⟨nofun, nofun⟩
  · exact Iff.rfl

/-- After validation and reservation the lane has every seat that its edit bank names (R83, R84). -/
theorem State.named_reserveSeats {s : State} {n : LaneId} (hvalid : s.validateSwap n = none) {r : RingId} {side : Side}
    (hnamed : bankNames (s.smap n).editBank (s.lane n).cfg.slots side r = true) :
    ((s.reserveSeats n).ring r).seat side = .reserved n ∨ ((s.reserveSeats n).ring r).seat side = .held (.lane n) := by
  obtain ⟨-, -, hseat⟩ := State.opened_of_namingTest (State.opened_of_validateSwap hvalid hnamed)
  rw [State.held_reserveSeats]
  rcases hseat with hfree | hheld
  · refine .inl ?_
    rw [State.seat_reserveSeats, Seat.reserveFor_eq, if_pos ⟨hnamed, hfree⟩]
  · exact .inr hheld

/-- A seat RESERVED for a lane that had no swap pending is one that its edit bank names. -/
theorem State.LaneSeated.reserved_reserveSeats {s : State} {n : LaneId} (h : s.LaneSeated n)
    (hidle : (s.smap n).swapPending = false) {r : RingId} {side : Side}
    (hreserved : ((s.reserveSeats n).ring r).seat side = .reserved n) :
    bankNames (s.smap n).editBank (s.lane n).cfg.slots side r = true := by
  rw [State.seat_reserveSeats, Seat.reserveFor_eq] at hreserved
  split at hreserved
  · rename_i htakes
    exact htakes.1
  · have hpending := (h.reserved r side hreserved).1
    rw [hidle] at hpending
    cases hpending

/-- The rings at which the lane then holds or has reserved a seat fit it (R75, R83). -/
theorem State.LaneSeated.fits_reserveSeats {s : State} {n : LaneId} (h : s.LaneSeated n)
    (hidle : (s.smap n).swapPending = false) (hvalid : s.validateSwap n = none) {r : RingId} {side : Side}
    (hseat : ((s.reserveSeats n).ring r).seat side = .held (.lane n) ∨
      ((s.reserveSeats n).ring r).seat side = .reserved n) :
    ((s.reserveSeats n).ring r).state = .opened ∧ ((s.reserveSeats n).ring r).width = (s.lane n).cfg.width := by
  have hmoves := s.movesSeatsOf_reserveSeats n
  rw [hmoves.state, hmoves.width]
  rcases hseat with hheld | hreserved
  · exact h.fits r side (.inl ((s.held_reserveSeats n n r side).mp hheld))
  · obtain ⟨hopen, hwidth, -⟩ := State.opened_of_namingTest
      (State.opened_of_validateSwap hvalid (h.reserved_reserveSeats hidle hreserved))
    exact ⟨hopen, hwidth⟩

theorem State.Linked.swapInOff {s : State} {n : LaneId} (h : s.Linked) (htarget : (s.lane n).rxTarget = .ignore)
    (hidle : (s.smap n).swapPending = false) (hvalid : s.validateSwap n = none) : (s.swapInOff n).Linked := by
  have hlane := s.lane_reserveSeats n n
  have hmap := s.smap_reserveSeats n n
  refine h.of_lane ((s.movesSeatsOf_reserveSeats n).trans (State.movesSeatsOf_exchange _ n none))
    (State.laneSeated_exchange none ?_ ?_) fun r hr => ?_
  · rw [hlane, hmap]
    exact fun r side hnamed => State.named_reserveSeats hvalid hnamed
  · rw [hlane]
    exact fun r side hseat => (h.lane n).fits_reserveSeats hidle hvalid hseat
  · have hself : (s.swapInOff n).lane n = s.lane n := by
      rw [State.swapInOff_frame]
      rfl
    have hr : ((s.swapInOff n).lane n).rxTarget = .ring r := hr
    rw [hself, htarget] at hr
    cases hr

theorem State.Linked.swapLater {s : State} {n : LaneId} (h : s.Linked) (hon : (s.lane n).state ≠ .off)
    (hidle : (s.smap n).swapPending = false) (hvalid : s.validateSwap n = none) : (s.swapLater n).Linked := by
  have hmoves := s.movesSeatsOf_reserveSeats n
  have hlane := s.lane_reserveSeats n n
  have hheld := s.held_reserveSeats n n
  have hreserved := @State.LaneSeated.reserved_reserveSeats s n (h.lane n) hidle
  have hfits := @State.LaneSeated.fits_reserveSeats s n (h.lane n) hidle hvalid
  have hnamed := @State.named_reserveSeats s n hvalid
  rw [State.swapLater]
  generalize s.reserveSeats n = u at hmoves hlane hheld hreserved hfits hnamed
  refine h.of_lane (hmoves.trans (u.movesSeatsOf_setSmap n _))
    ⟨fun r side => ?_, fun _ => ?_, fun r side hseat => ?_, fun _ r side hname => ?_, fun r side hseat => ?_⟩ fun r hr => ?_
  · rw [State.ring_setSmap, State.lane_setSmap, State.smap_setSmap_self, hlane]
    exact (hheld r side).trans ((h.lane n).held r side)
  · rw [State.lane_setSmap, hlane]
    exact hon
  · rw [State.lane_setSmap, State.smap_setSmap_self, hlane]
    exact ⟨rfl, hreserved hseat⟩
  · rw [State.lane_setSmap, State.smap_setSmap_self, hlane] at hname
    exact hnamed hname
  · rw [State.lane_setSmap, hlane]
    exact hfits hseat
  · rw [State.lane_setSmap, hlane] at hr
    exact (hheld r .producer).mpr (h.targets n r hr)

theorem State.Linked.cancel {s : State} {n : LaneId} (h : s.Linked) (hpending : (s.smap n).swapPending = true) :
    (s.dropSwap n).Linked := by
  have hmoves := s.movesSeatsOf_dropSwap n
  have hlane : (s.dropSwap n).lane n = s.lane n := congrArg (·[n.val]) (s.lanes_dropSwap n)
  refine h.of_lane hmoves ((h.lane n).cancelled hmoves (fun r side => ?_) (s.smap_dropSwap_self n) (by rw [hlane]))
    fun r hr => ?_
  · simp only [State.seat_dropSwap, hpending, true_and]
  · rw [hlane] at hr
    have hheld := h.targets n r hr
    have hheld : (s.ring r).seat .producer = .held (.lane n) := hheld
    rw [State.seat_dropSwap, hheld]
    exact if_neg nofun

end Sys2Proof.Machine
end

section
/-! PROOFS. The invariant as a whole: it holds at reset, and every step keeps it. -/

namespace Sys2Proof.Machine

/-! ## Reset -/

theorem SlotMap.unnamed_reset (slots : Nat) (side : Side) (r : RingId) :
    bankNames SlotMap.reset.liveBank slots side r ≠ true := by
  intro h
  obtain ⟨i, -, hnames⟩ := (bankNames_iff _ _ _ _).mp h
  have hentry : SlotMap.reset.liveBank[i] = .reset := Vector.getElem_replicate _
  rw [hentry] at hnames
  cases side <;> cases hnames

theorem Channel.ok_reset : Channel.reset.Ok :=
  ⟨by decide, by decide, Nat.zero_le _, by decide, fun hstate => absurd rfl hstate, fun hg => absurd hg (Nat.lt_irrefl 0),
    fun _ hactive => ChanState.noConfusion hactive, fun hg => Bool.noConfusion hg⟩

theorem State.Blank.attachOf {s : State} (h : s.Blank) (a : Agent) : s.attachOf a = none := by
  cases a with
  | pr => exact (congrArg ReadPort.attach h.pr).trans rfl
  | pw => exact (congrArg WritePort.attach h.pw).trans rfl
  | dma ch => exact h.attach_chan ch

/-- With every block at its reset values nobody is seated. -/
theorem State.Blank.linked {s : State} (h : s.Blank) : s.Linked := by
  have hfree : ∀ r side, (s.ring r).seat side = .free := fun r side => by rw [h.rings, Ring.seat_reset]
  have hlane : ∀ n, s.LaneSeated n := fun n => by
    refine State.laneSeated_of_none (by rw [h.maps]; rfl) (fun r side => ?_) fun r side => ?_
    · rw [hfree]
      exact ⟨nofun, nofun⟩
    · rw [h.maps]
      exact SlotMap.unnamed_reset _ side r
  refine ⟨⟨fun a r side => ?_, fun n => (hlane n).held, fun n => ⟨(hlane n).on, (hlane n).reserved, (hlane n).named⟩,
    fun n => (hlane n).fits, fun ch => ⟨?_, fun a ha => ?_⟩, ?_, ?_⟩, fun n r hr => ?_⟩
  · rw [hfree, h.attachOf]
    exact ⟨⟨nofun, nofun⟩, nofun⟩
  · rw [h.chans]
    exact Channel.ok_reset
  · rw [h.attach_chan] at ha
    cases ha
  · rw [h.pr]
    exact fun hlatch => absurd rfl hlatch
  · rw [h.pw]
    exact fun hstaging => absurd rfl hstaging
  · rw [h.lanes] at hr
    cases hr

theorem State.blank_reset : State.reset.Blank :=
  ⟨State.ring_reset, State.lane_reset, State.smap_reset, State.chan_reset, rfl, rfl⟩

/-- The invariant by its layers: memory and notices, start-up, rings, seats, lanes. -/
theorem State.inv_of_layers {s : State} (hmemory : s.MemoryOk) (hnotices : s.notices.Ok) (hmask : s.notices.MaskOk)
    (hstartup : s.StartupOk) (hrings : s.RingsOk) (hregions : s.RegionsDisjoint) (hlinked : s.Linked)
    (hlanes : s.LanesOk) : s.Inv where
  memory := hmemory
  notices := hnotices
  mask := hmask
  startup := hstartup.1
  clearing := hstartup.2
  rings := hrings
  regions := hregions
  agents := hlinked.agents
  laneSeats := hlinked.laneSeats
  reservations := hlinked.reservations
  laneRings := hlinked.laneRings
  targets := hlinked.targets
  channels := hlinked.channels
  grants := hlinked.grants
  lanes := hlanes
  ports := hlinked.ports

/-- Settles O60: every block is at its reset values, and no ring is OPEN. -/
theorem invariantHoldsAtReset : Obligations.InvariantHoldsAtReset := by
  refine State.inv_of_layers rfl NoticeUnit.ok_reset NoticeUnit.maskOk_reset
    ⟨State.quietInStartup_of_blank rfl State.blank_reset rfl, State.clearingOk_of_startup rfl Config.memWords_pos⟩
    (fun r => Ring.ok_of_closed (State.ring_reset r)) (fun r q _ hopen => ?_) State.blank_reset.linked fun n => ?_
  · rw [State.ring_reset] at hopen
    cases hopen
  · rw [State.lane_reset]
    exact Lane.ok_reset

/-! ## Every step -/

theorem Performs.linked {code : Nat} {s t : State} {a : Answer} (hperforms : Performs code s t a) (h : s.Linked)
    (hrings : s.RingsOk) (hlanes : s.LanesOk) : t.Linked := by
  have hslots : ∀ n, 0 < (s.lane n).cfg.slots := fun n => (hlanes n).basics.cfg.1
  cases hperforms with
  | refused | refusedSwap | answered => exact h
  | openRing r base length width hrange hclosed => exact h.openRing hrings hclosed base length width
  | closeRing r hopen hproducer hconsumer => exact h.closeRing hproducer hconsumer
  | flush r hopen hidle => exact h.flush hidle
  | marks r =>
    refine State.Linked.rezone (h.setRing_books ?_ ?_) r
    · exact ⟨rfl, rfl, rfl, rfl, rfl⟩
    · rfl
  | policy | fill | clearStats => exact h.setRing_books ⟨rfl, rfl, rfl, rfl, rfl⟩ rfl
  | attach b r side hfits hopen hidle hfree => exact h.attach hfits hopen hidle hfree
  | detach b att hatt hidle => exact h.detach hatt hidle
  | setParam n param value hok hoff hseatless => exact h.putParam hseatless
  | startMaster n => exact h.startMaster (hslots n)
  | startFollower n => exact h.startFollower n
  | stop n => exact h.stop n
  | leave n => exact h.enterOff n
  | edit n b hidle => exact h.edit b hidle
  | swapInOff n hoff hidle hvalid =>
    obtain ⟨-, -, -, -, htarget⟩ := ((hlanes n).idle ((Lane.not_framing_iff _).mpr (.inl hoff))).silent.1
    exact h.swapInOff htarget hidle hvalid
  | swapLater n hon hidle hvalid => exact h.swapLater hon hidle hvalid
  | cancel n hpending => exact h.cancel hpending
  | setDma ch setting value hok hidle => exact h.setDma hok hidle
  | go ch hattached => exact h.go hattached
  | halt ch => exact h.halt ch
  | mask => exact h.of_same rfl rfl rfl rfl rfl rfl

theorem State.Linked.startupPeriod {s : State} (h : s.Linked) : s.startupPeriod.Linked := by
  unfold State.startupPeriod
  split
  · exact h.of_same rfl rfl rfl rfl rfl rfl
  · split
    · exact h.of_same rfl rfl rfl rfl rfl rfl
    · exact h.of_same rfl rfl rfl rfl rfl rfl

/-- The end of a re-assertion gap leaves the request as it is (R141). -/
theorem State.Linked.gapEnd {s : State} (h : s.Linked) (ch : ChanId) :
    (s.setChan ch { s.chan ch with gap := false }).Linked := by
  obtain ⟨hlow, hhigh, hquantum, hcount, hattached, hactive, htally, -⟩ := (h.requests ch).1
  exact h.setChan rfl ⟨hlow, hhigh, hquantum, hcount, hattached, hactive, htally, fun hg => Bool.noConfusion hg⟩
    (Nat.le_refl _)

theorem State.StepsTo.linked {s t : State} (hsteps : s.StepsTo t) (h : s.Linked) (hrings : s.RingsOk) (hlanes : s.LanesOk) :
    t.Linked := by
  have hslots : ∀ n, 0 < (s.lane n).cfg.slots := fun n => (hlanes n).basics.cfg.1
  cases hsteps with
  | stays => exact h
  | undefinedRead | notReady | argument | pop | release | startupEnd => exact h.of_same rfl rfl rfl rfl rfl rfl
  | performed code u a haccepts hperforms =>
    have hcmd : (s.setCmd code).Linked := h.of_same rfl rfl rfl rfl rfl rfl
    exact (hperforms.linked hcmd hrings hlanes).of_same rfl rfl rfl rfl rfl rfl
  | softReset => exact (s.blank_resetWith false).linked
  | pinReset => exact (s.blank_resetWith true).linked
  | commandMetPin => exact (s.blank_resetWith true).linked.of_same rfl rfl rfl rfl rfl rfl
  | prFlags v => exact h.prFlags v
  | pwFlags v => exact h.pwFlags v
  | chanFlags ch v => exact h.setChan_books rfl
  | prRead => exact h.prRead
  | pwStage v => exact h.pwStage v
  | pwPush v => exact h.pwPush v
  | lowRead ch w => exact (h.addressedLow ch none).drives w
  | lowWrite ch v => exact h.addressedLow ch _
  | highWrite ch v => exact h.addressedHighWrite ch v
  | strobe dak0 dak1 write => exact h.ackStrobe dak0 dak1 write
  | gapEnd ch => exact h.gapEnd ch
  | startupPeriod => exact h.startupPeriod
  | syncArrival n => exact h.syncArrival (hslots n)
  | syncCheckPoint n => exact h.syncCheckPoint (hslots n)
  | frameStart n => exact h.frameStartEvent (hslots n)
  | slotStart n => exact h.slotStartEvent
  | slotEnd n => exact h.slotEnd
  | endOfFrame n => exact h.endOfFrame n
  | watchExpiry n => exact h.watchExpiry (hslots n)
  | driveEdge n => exact h.setLane_samePlace (s.lane n).samePlace_driveEdge
  | samplingEdge n rx sync => exact h.setLane_samePlace ((s.lane n).samePlace_samplingEdge rx sync)

theorem State.StepsTo.inv {s t : State} (hsteps : s.StepsTo t) (h : s.Inv) : t.Inv :=
  State.inv_of_layers (hsteps.keeps.memory h.memory) (hsteps.keeps.notices.queue h.notices)
    (hsteps.keeps.notices.mask h.mask) (hsteps.startupOk ⟨h.startup, h.clearing⟩) (hsteps.keeps.rings h.rings)
    (hsteps.keeps.regions h.regions) (hsteps.linked h.linked h.rings h.lanes) (hsteps.lanesOk h.lanes)

theorem State.Inv.with_pending {s : State} (h : s.Inv) (rest : List Instr) : ({ s with pending := rest } : State).Inv :=
  State.inv_of_layers h.memory h.notices h.mask ⟨h.startup, h.clearing⟩ h.rings h.regions
    (h.linked.of_same rfl rfl rfl rfl rfl rfl) h.lanes

/-- Settles O59: each layer of the invariant is kept along `StepsTo`; a ring that backs a grant has the cells, or the
room. -/
theorem stepKeepsTheInvariant : Obligations.StepKeepsTheInvariant := by
  refine ⟨fun s t h hstep => ?_, fun s ch a h hgrant ha => ?_⟩
  · obtain ⟨rest, hsteps⟩ := step_stepsTo hstep
    exact hsteps.inv (h.with_pending rest)
  · obtain ⟨hopen, hbacked⟩ := h.grants ch a ha hgrant
    have hlevel := ((h.rings a.ring).fits hopen).level
    refine ⟨hopen, fun hside => ?_, fun hside => ?_⟩
    · rw [hside] at hbacked
      exact hbacked
    · rw [hside] at hbacked
      have hroom : (s.chan ch).grant ≤ (s.ring a.ring).cap - (s.ring a.ring).level := hbacked
      omega

end Sys2Proof.Machine
end
